-- ==== Sys2Proof/Word.lean ====
section
/-! DEFINITION. The word types of the spec's notation (00_scope.md R4, R5) and the four Exception levels. -/

namespace Sys2Proof

/-- A 64-bit value: the register, `X[t]`, the program counter (00_scope.md R5, 10_state.md R20, R53, R54). -/
abbrev Word := BitVec 64

/-- One byte of an instruction word in memory (20_memory.md R74). -/
abbrev Byte := BitVec 8

/-- One identification field of the register (10_state.md R21: every field is four bits wide). -/
abbrev Nibble := BitVec 4

/-- The number `t` of a general-purpose register, `0 <= t <= 31` (00_scope.md R5, 30_encoding.md R93).
PRESUMED (log 14): the range is the spec's own, from general knowledge. -/
abbrev RegNum := Fin 32

/-- The four Exception levels the accessor's pseudocode distinguishes (10_state.md R50). -/
inductive ExceptionLevel where
  | el0
  | el1
  | el2
  | el3
deriving DecidableEq, Repr, Inhabited

end Sys2Proof
end

