-- ==== Sys2Proof/Config.lean ====
section
/-! DEFINITION. The implementation parameters of 00_scope.md R3, and the free values of the model.
A parameter is not state: no rule of the spec writes one. `Machine.State` carries one legal set of parameters, since
`step` takes the state alone (log 1). -/

namespace Sys2Proof

/-- Which architecture versions the implementation is "from" (00_scope.md R3). -/
structure Arch where
  ge_v8_3 : Bool
  ge_v8_6 : Bool
  ge_v8_7 : Bool
  ge_v8_8 : Bool
  ge_v8_9 : Bool
  ge_v9_4 : Bool
deriving DecidableEq, Repr, Inhabited

/-- The parameters of 00_scope.md R3, in its table's order. -/
structure Params where
  /-- `ISAR2`: the value of ID_AA64ISAR2_EL1. -/
  isar2 : Word
  /-- `IsFeatureImplemented(FEAT_IDST)`. -/
  haveIDST : Bool
  /-- `IsFeatureImplemented(FEAT_FGT)`. -/
  haveFGT : Bool
  /-- `boolean IMPLEMENTATION_DEFINED "ID_AA64ISAR2_EL1 trapped by HCR_EL2.TID3"` (log 30). -/
  impDefTid3TrapsZeroReg : Bool
  /-- FEAT_MTE is implemented. -/
  haveMTE : Bool
  arch : Arch
  /-- Fields API, APA, GPI, GPA of ID_AA64ISAR1_EL1. -/
  isar1Api : Nibble
  isar1Apa : Nibble
  isar1Gpi : Nibble
  isar1Gpa : Nibble
deriving DecidableEq, Repr, Inhabited

/-- What a trap records beyond the class 0x18: "a syndrome identifying the register and `t`, a return address" (60_exceptions.md R162). DESIGN CHOICE
(log 19): two values of 64 bits each. -/
structure TrapRecord where
  syndrome : Word
  returnAddress : Word
deriving DecidableEq, Repr, Inhabited

/-- Which of the two optional Exception levels the enclosing PE has (92_eei_decisions.md D13: OPEN). -/
structure Levels where
  haveEL2 : Bool
  haveEL3 : Bool
deriving DecidableEq, Repr, Inhabited

namespace Config

/-- The parameters of the PE that `State.reset` describes. FREE VALUE (log 2, safe): each implementation decides them
(92_eei_decisions.md D1, D6, D27), so nothing here says what they are. -/
opaque chosen : Params

/-- The OPEN parameter `TrapSyndrome` of 92_eei_decisions.md D24: what a trap to the given level records beyond the class 0x18, of the accessor with
destination `t` at the address `pc`. FREE VALUE (log 19, safe): no rule constrains either part of it. -/
opaque trapSyndrome (target : ExceptionLevel) (t : RegNum) (pc : Word) : TrapRecord

end Config

end Sys2Proof
end

