-- ==== Sys2Proof/Machine/Isar2.lean ====
section
/-! DEFINITION. What the 64-bit value of ID_AA64ISAR2_EL1 says: the fields (10_state.md R21, 41_feature_predicates.md R130),
the feature predicates (R131 to R145) and the legality of a value (R146). -/

namespace Sys2Proof

namespace Isar2

/-! ## Fields (10_state.md R21, 41_feature_predicates.md R130) -/

/-- Bits [63:56], "Reserved, res0" (R22). -/
def res0Hi (v : Word) : BitVec 8 := v.extractLsb' 56 8
/-- CSSC, bits [55:52] (R23). -/
def cssc (v : Word) : Nibble := v.extractLsb' 52 4
/-- RPRFM, bits [51:48] (R25). -/
def rprfm (v : Word) : Nibble := v.extractLsb' 48 4
/-- Bits [47:44], "Reserved, res0" (R26). -/
def res0Mid (v : Word) : Nibble := v.extractLsb' 44 4
/-- PRFMSLC, bits [43:40] (R27). -/
def prfmslc (v : Word) : Nibble := v.extractLsb' 40 4
/-- SYSINSTR_128, bits [39:36] (R28). -/
def sysinstr128 (v : Word) : Nibble := v.extractLsb' 36 4
/-- SYSREG_128, bits [35:32] (R29). -/
def sysreg128 (v : Word) : Nibble := v.extractLsb' 32 4
/-- CLRBHB, bits [31:28] (R30). -/
def clrbhb (v : Word) : Nibble := v.extractLsb' 28 4
/-- PAC_frac, bits [27:24] (R32). -/
def pacFrac (v : Word) : Nibble := v.extractLsb' 24 4
/-- BC, bits [23:20] (R34). -/
def bc (v : Word) : Nibble := v.extractLsb' 20 4
/-- MOPS, bits [19:16] (R36). -/
def mops (v : Word) : Nibble := v.extractLsb' 16 4
/-- APA3, bits [15:12] (R38). -/
def apa3 (v : Word) : Nibble := v.extractLsb' 12 4
/-- GPA3, bits [11:8] (R42). -/
def gpa3 (v : Word) : Nibble := v.extractLsb' 8 4
/-- RPRES, bits [7:4] (R45). -/
def rpres (v : Word) : Nibble := v.extractLsb' 4 4
/-- WFXt, bits [3:0] (R46). -/
def wfxt (v : Word) : Nibble := v.extractLsb' 0 4

/-- `IsZero(v)` (00_scope.md R5). -/
def isZero (v : Word) : Bool := v == 0#64

end Isar2

/-- The thirteen identification fields as separate values (00_scope.md R3: equivalent to `ISAR2`, the RES0 bits zero). -/
structure Isar2Fields where
  cssc : Nibble
  rprfm : Nibble
  prfmslc : Nibble
  sysinstr128 : Nibble
  sysreg128 : Nibble
  clrbhb : Nibble
  pacFrac : Nibble
  bc : Nibble
  mops : Nibble
  apa3 : Nibble
  gpa3 : Nibble
  rpres : Nibble
  wfxt : Nibble
deriving DecidableEq, Repr, Inhabited

namespace Isar2

/-- All thirteen fields of a value. -/
def fields (v : Word) : Isar2Fields where
  cssc := cssc v
  rprfm := rprfm v
  prfmslc := prfmslc v
  sysinstr128 := sysinstr128 v
  sysreg128 := sysreg128 v
  clrbhb := clrbhb v
  pacFrac := pacFrac v
  bc := bc v
  mops := mops v
  apa3 := apa3 v
  gpa3 := gpa3 v
  rpres := rpres v
  wfxt := wfxt v

/-- The register value of thirteen field values: the concatenation of 10_state.md R21, RES0 ranges zero. -/
def compose (f : Isar2Fields) : Word :=
  0#8 ++ f.cssc ++ f.rprfm ++ 0#4 ++ f.prfmslc ++ f.sysinstr128 ++ f.sysreg128 ++ f.clrbhb ++ f.pacFrac ++ f.bc
    ++ f.mops ++ f.apa3 ++ f.gpa3 ++ f.rpres ++ f.wfxt

/-! ## Feature predicates (41_feature_predicates.md R131 to R145)

Each is asked only of a legal value (`Params.query`). Exact values, never "nonzero" or "at least" (log 25). -/

/-- R131: the common short sequence compression instructions are implemented. -/
def haveCSSC (v : Word) : Bool := cssc v == 0b0001#4
/-- R132: the RPRFM hint instruction is implemented. -/
def haveRPRFM (v : Word) : Bool := rprfm v == 0b0001#4
/-- R133: the PRFM instructions support the SLC target. -/
def havePRFMSLC (v : Word) : Bool := prfmslc v == 0b0001#4
/-- R134: System instructions that can take 128-bit inputs are supported. -/
def haveSYSINSTR128 (v : Word) : Bool := sysinstr128 v == 0b0001#4
/-- R135: instructions to access 128-bit System registers are supported. -/
def haveSYSREG128 (v : Word) : Bool := sysreg128 v == 0b0001#4
/-- R136: the CLRBHB instruction is implemented. -/
def haveCLRBHB (v : Word) : Bool := clrbhb v == 0b0001#4
/-- R137: the return value of the architecture's `ConstPACField()`. -/
def constPACField (v : Word) : Bool := pacFrac v == 0b0001#4
/-- R138: the BC instruction is implemented. -/
def haveBC (v : Word) : Bool := bc v == 0b0001#4
/-- R139: the Memory Copy and Memory Set instructions are implemented in AArch64 state. -/
def haveMOPS (v : Word) : Bool := mops v == 0b0001#4
/-- R139: the SETGP*, SETGM* and SETGE* instructions are supported. DEDUCED (log 27): D25's reading of the sentence. -/
def haveSETG (v : Word) (haveMTE : Bool) : Bool := haveMOPS v && haveMTE
/-- R140: address authentication using the QARMA3 algorithm is implemented. -/
def addrAuthQARMA3 (v : Word) : Bool := apa3 v != 0b0000#4

/-- R140, column HaveEnhancedPAC(). `none` is a cell the source does not state (log 26). -/
def haveEnhancedPAC (v : Word) : Option Bool :=
  match (apa3 v).toNat with
  | 1 => some false
  | 2 => some true
  | 3 => some false
  | 4 => some false
  | 5 => some false
  | _ => none

/-- R140, column HaveEnhancedPAC2(). -/
def haveEnhancedPAC2 (v : Word) : Option Bool :=
  match (apa3 v).toNat with
  | 1 => some false
  | 2 => some false
  | 3 => some true
  | 4 => some true
  | 5 => some true
  | _ => none

/-- R140, column HaveFPAC(). -/
def haveFPAC (v : Word) : Option Bool :=
  match (apa3 v).toNat with
  | 3 => some false
  | 4 => some true
  | 5 => some true
  | _ => none

/-- R140, column HaveFPACCombined(). -/
def haveFPACCombined (v : Word) : Option Bool :=
  match (apa3 v).toNat with
  | 3 => some false
  | 4 => some false
  | 5 => some true
  | _ => none

/-- R142: generic authentication using the QARMA3 algorithm is implemented; this includes the PACGA instruction. -/
def genericAuthQARMA3 (v : Word) : Bool := gpa3 v == 0b0001#4

/-- R143: FEAT_PACQARMA3 is implemented, by either of the two sentences that name it (log 28). -/
def havePACQARMA3 (v : Word) : Bool := apa3 v != 0b0000#4 || gpa3 v == 0b0001#4

/-- R144: mantissa bits of the reciprocal and reciprocal square root estimates. `none` for `FPCR.AH` 0, of which the
source states nothing (log 26), and for a reserved field value. -/
def recipEstimateMantissaBits (v : Word) (fpcrAh : Bool) : Option Nat :=
  if fpcrAh then
    match (rpres v).toNat with
    | 0 => some 8
    | 1 => some 12
    | _ => none
  else none

/-- R145: WFET and WFIT are supported, and the register number is reported in ESR_ELx on exceptions. The value is 2. -/
def haveWFXT (v : Word) : Bool := wfxt v == 0b0010#4

/-! ## Legality (41_feature_predicates.md R146) -/

/-- Clauses W1 and W2: the reserved bits read as zero (R22, R26; log 23). -/
def reservedBitsZero (v : Word) : Bool := res0Hi v == 0#8 && res0Mid v == 0#4

/-- A field whose defined values are 0b0000 and 0b0001. -/
def twoValued (f : Nibble) : Bool := f == 0b0000#4 || f == 0b0001#4

/-- Clauses W3 to W15: every field holds a defined value (R23 to R46, R48). -/
def definedValues (v : Word) : Bool :=
  twoValued (cssc v) && twoValued (rprfm v) && twoValued (prfmslc v) && twoValued (sysinstr128 v)
  && twoValued (sysreg128 v) && twoValued (clrbhb v) && twoValued (pacFrac v) && twoValued (bc v) && twoValued (mops v)
  && (apa3 v).toNat ≤ 5
  && twoValued (gpa3 v) && twoValued (rpres v)
  && (wfxt v == 0b0000#4 || wfxt v == 0b0010#4)

/-- `a` implies `b`. -/
def implies (a b : Bool) : Bool := !a || b

/-- Clauses W16 to W21: what the architecture version permits (R24, R31, R35, R37, R40, R47). W21 holds only where
ID_AA64ISAR1_EL1 reports no address authentication (log 24: 90_conflicts.md C5). -/
def versionPermits (v : Word) (arch : Arch) (api apa : Nibble) : Bool :=
  implies arch.ge_v9_4 (cssc v == 0b0001#4)
  && implies arch.ge_v8_9 (clrbhb v == 0b0001#4)
  && implies arch.ge_v8_8 (bc v == 0b0001#4)
  && implies arch.ge_v8_8 (mops v == 0b0001#4)
  && implies arch.ge_v8_7 (wfxt v == 0b0010#4)
  && implies (arch.ge_v8_6 && api == 0#4 && apa == 0#4)
      (apa3 v == 0b0011#4 || apa3 v == 0b0100#4 || apa3 v == 0b0101#4)

/-- Clauses W22 and W23: the constraints against fields of ID_AA64ISAR1_EL1 (R41, R44). -/
def crossRegister (v : Word) (api apa gpi gpa : Nibble) : Bool :=
  implies (api != 0#4 || apa != 0#4) (apa3 v == 0b0000#4)
  && implies (gpi != 0#4 || gpa != 0#4) (gpa3 v == 0b0000#4)

/-- `WF_ISAR2` of R146. -/
def wfIsar2 (v : Word) (arch : Arch) (api apa gpi gpa : Nibble) : Bool :=
  reservedBitsZero v && definedValues v && versionPermits v arch api apa && crossRegister v api apa gpi gpa

end Isar2

/-- The order of the versions (00_scope.md R3, 92_eei_decisions.md D6). PRESUMED (log 22). -/
def Arch.monotonic (a : Arch) : Bool :=
  Isar2.implies a.ge_v9_4 a.ge_v8_9 && Isar2.implies a.ge_v8_9 a.ge_v8_8 && Isar2.implies a.ge_v8_8 a.ge_v8_7
  && Isar2.implies a.ge_v8_7 a.ge_v8_6 && Isar2.implies a.ge_v8_6 a.ge_v8_3

/-- A legal set of parameters: the versions are ordered and the register's value satisfies `WF_ISAR2` (R3, R146). -/
def Params.legal (p : Params) : Bool :=
  p.arch.monotonic && Isar2.wfIsar2 p.isar2 p.arch p.isar1Api p.isar1Apa p.isar1Gpi p.isar1Gpa

/-- A question about the register's value, answered only for a legal configuration (10_state.md R48; the head of
41_feature_predicates.md: on any other value the model refuses the configuration). -/
def Params.query {α : Type} (p : Params) (q : Word → α) : Option α :=
  if p.legal then some (q p.isar2) else none

/-! ## Feature names (00_scope.md R1's table, 41_feature_predicates.md R131 to R145) -/

/-- The features the source names, in the order of the table of 00_scope.md section 1. `paauth` and `paauth2` keep the source's
spelling (FEAT_PAAuth, FEAT_PAAuth2). -/
inductive Feature where
  | cssc | rprfm | prfmslc | sysinstr128 | sysreg128 | clrbhb | constpacfield | hbc | mops | mte
  | paauth | epac | paauth2 | fpac | fpaccombine | pacqarma3 | rpres | wfxt | idst | fgt
deriving DecidableEq, Repr

/-- The feature the source names for a nonzero APA3 value (R141, 10_state.md R39). -/
def Isar2.featureOfApa3 (a : Nibble) : Option Feature :=
  match a.toNat with
  | 1 => some .paauth
  | 2 => some .epac
  | 3 => some .paauth2
  | 4 => some .fpac
  | 5 => some .fpaccombine
  | _ => none

/-- `IsFeatureImplemented(f)` as far as the source states it, on a legal configuration: an equivalence for the two-valued
fields, one direction alone for the five features of APA3 (R141; `none`: not stated; log 25). -/
def Params.featureImplemented (p : Params) (f : Feature) : Option Bool :=
  let fromApa3 (f : Feature) : Option Bool :=
    if Isar2.featureOfApa3 (Isar2.apa3 p.isar2) = some f then some true else none
  match f with
  | .cssc => some (Isar2.haveCSSC p.isar2)
  | .rprfm => some (Isar2.haveRPRFM p.isar2)
  | .prfmslc => some (Isar2.havePRFMSLC p.isar2)
  | .sysinstr128 => some (Isar2.haveSYSINSTR128 p.isar2)
  | .sysreg128 => some (Isar2.haveSYSREG128 p.isar2)
  | .clrbhb => some (Isar2.haveCLRBHB p.isar2)
  | .constpacfield => some (Isar2.constPACField p.isar2)
  | .hbc => some (Isar2.haveBC p.isar2)
  | .mops => some (Isar2.haveMOPS p.isar2)
  | .mte => some p.haveMTE
  | .paauth => fromApa3 .paauth
  | .epac => fromApa3 .epac
  | .paauth2 => fromApa3 .paauth2
  | .fpac => fromApa3 .fpac
  | .fpaccombine => fromApa3 .fpaccombine
  | .pacqarma3 => some (Isar2.havePACQARMA3 p.isar2)
  | .rpres => some (Isar2.rpres p.isar2 == 0b0001#4)
  | .wfxt => some (Isar2.haveWFXT p.isar2)
  | .idst => some p.haveIDST
  | .fgt => some p.haveFGT

end Sys2Proof
end

