-- ==== Sys2Proof/Syntax.lean ====
section
/-! DEFINITION. The instruction of the opcode table, and a location of the System register encoding space (20_memory.md R70). -/

namespace Sys2Proof

/-- A location of the System register encoding space: the five-tuple of 20_memory.md R70, with the widths given there. -/
structure SysRegLoc where
  op0 : BitVec 2
  op1 : BitVec 3
  crn : BitVec 4
  crm : BitVec 4
  op2 : BitVec 3
deriving DecidableEq, Repr, Inhabited

/-- The location of ID_AA64ISAR2_EL1: (3, 0, 0, 6, 2) (20_memory.md R71, 30_encoding.md R90). -/
def SysRegLoc.isar2 : SysRegLoc where
  op0 := 0b11#2
  op1 := 0b000#3
  crn := 0b0000#4
  crm := 0b0110#4
  op2 := 0b010#3

/-- The instructions of spec/opcode_table.json: one row. -/
inductive Instr where
  /-- `MRS <Xt>, ID_AA64ISAR2_EL1` (30_encoding.md R90, 40_mrs_access.md R110). -/
  | mrsIdAa64isar2El1 (t : RegNum)
deriving DecidableEq, Repr

/-- The name of a destination register: X0 to X30, XZR for 31 (30_encoding.md R94). PRESUMED (log 14). -/
def RegNum.asm (t : RegNum) : String :=
  if t.val = 31 then "XZR" else "X" ++ toString t.val

/-- The assembler spelling of an instruction (30_encoding.md R94). -/
def Instr.asm : Instr → String
  | .mrsIdAa64isar2El1 t => "MRS " ++ RegNum.asm t ++ ", ID_AA64ISAR2_EL1"

/-- The generic name `S<op0>_<op1>_C<CRn>_C<CRm>_<op2>` of a location (30_encoding.md R94). PRESUMED (log 14). -/
def SysRegLoc.genericName (l : SysRegLoc) : String :=
  "S" ++ toString l.op0.toNat ++ "_" ++ toString l.op1.toNat ++ "_C" ++ toString l.crn.toNat ++ "_C"
    ++ toString l.crm.toNat ++ "_" ++ toString l.op2.toNat

end Sys2Proof
end

