-- ==== Sys2Proof/WellFormed.lean ====
section
/-! DEFINITION. Well-formedness. An instruction is well formed by its type: its one operand is a `RegNum`, 0 to 31
(30_encoding.md R93). What can be ill formed is an operand written as a number, and a configuration (R48, R146): each is checked here, once,
and the checked value carries its own proof. -/

namespace Sys2Proof

/-- A register number given as a number: none outside 0 to 31 (30_encoding.md R93). -/
def RegNum.ofNat? (n : Nat) : Option RegNum :=
  if h : n < 32 then some ⟨n, h⟩ else none

/-- A legal set of parameters. "A model takes `ISAR2` only with `WF_ISAR2` true" (41_feature_predicates.md R146): an illegal
configuration cannot be built, so no state has one (log 23). -/
structure Implementation where
  params : Params
  legal : params.legal = true
deriving DecidableEq, Repr

/-- The check of a configuration: none for an illegal one (10_state.md R48). -/
def Implementation.ofParams? (p : Params) : Option Implementation :=
  if h : p.legal = true then some ⟨p, h⟩ else none

/-- Parameters of one PE that predates every feature of the register. The spec fixes the value alone, zero (00_scope.md R2, 92_eei_decisions.md D28). DESIGN
CHOICE (log 29): everything else here (no FEAT_IDST, so EL0 is Undefined; no FEAT_FGT, no FEAT_MTE, a zero register not trapped by TID3, no version, the
ID_AA64ISAR1_EL1 fields zero) is the model's, and the spec leaves it open. Statements about such a PE speak of every state whose register is zero. -/
def Params.predating : Params where
  isar2 := 0#64
  haveIDST := false
  haveFGT := false
  impDefTid3TrapsZeroReg := false
  haveMTE := false
  arch := ⟨false, false, false, false, false, false⟩
  isar1Api := 0#4
  isar1Apa := 0#4
  isar1Gpi := 0#4
  isar1Gpa := 0#4

/-- The implementation with those parameters: one that predates the register (00_scope.md R2; DESIGN CHOICE, log 29). -/
def Implementation.predating : Implementation := ⟨Params.predating, by decide⟩

/-- The implementation `State.reset` describes: the free value `Config.chosen` where that is legal. The other branch only makes
the definition total; nothing in Lean can tell which branch holds (log 2). -/
def Config.implementation : Implementation :=
  (Implementation.ofParams? Config.chosen).getD Implementation.predating

end Sys2Proof
end

