-- ==== Sys2Proof/Decode.lean ====
section
/-! DEFINITION. The instruction word (30_encoding.md R90 to R95): decoding, total on any bytes and refusing by name, and after it
the encoder. The places of the fields in the word are R91's, from general knowledge. PRESUMED (log 13). -/

namespace Sys2Proof

/-- Why some bytes are no instruction of this hardware (30_encoding.md R95; log 35). -/
inductive DecodeError where
  /-- `MSR ID_AA64ISAR2_EL1, <Xt>`: the write form of this register, which the source does not list. -/
  | writeAccessor
  /-- An `MRS` of a location the source gives no contents of. -/
  | otherRegisterRead (loc : SysRegLoc)
  /-- An `MSR` of such a location. -/
  | otherRegisterWrite (loc : SysRegLoc)
  /-- Any other word: a 128-bit or AArch32 accessor, whose encodings are in no source, is among these. -/
  | notAnAccessor
  /-- Fewer bytes than the four of an instruction. -/
  | truncated
deriving DecidableEq, Repr

/-! ## Fields of the word (30_encoding.md R91) -/

/-- Bits [31:22], `1101010100` in every MRS and MSR. -/
def wordOpcode (w : BitVec 32) : BitVec 10 := w.extractLsb' 22 10
/-- Bit 21, `L`: 1 for a read. -/
def wordIsRead (w : BitVec 32) : Bool := w.getLsbD 21
/-- Bit 20, 1 in every MRS and MSR of a register. -/
def wordIsRegister (w : BitVec 32) : Bool := w.getLsbD 20
/-- The five System register fields: op0 = 1 : o0 with o0 at bit 19, op1 [18:16], CRn [15:12], CRm [11:8], op2 [7:5]. -/
def wordLoc (w : BitVec 32) : SysRegLoc where
  op0 := 1#1 ++ w.extractLsb' 19 1
  op1 := w.extractLsb' 16 3
  crn := w.extractLsb' 12 4
  crm := w.extractLsb' 8 4
  op2 := w.extractLsb' 5 3
/-- Rt, bits [4:0] (30_encoding.md R93). -/
def wordRt (w : BitVec 32) : RegNum := (w.extractLsb' 0 5).toFin

/-- The instruction of a word, or why there is none. -/
def decodeWord (w : BitVec 32) : Except DecodeError Instr :=
  if wordOpcode w = 0b1101010100#10 ∧ wordIsRegister w = true then
    if wordIsRead w then
      if wordLoc w = SysRegLoc.isar2 then .ok (.mrsIdAa64isar2El1 (wordRt w))
      else .error (.otherRegisterRead (wordLoc w))
    else
      if wordLoc w = SysRegLoc.isar2 then .error .writeAccessor
      else .error (.otherRegisterWrite (wordLoc w))
  else .error .notAnAccessor

/-- The word of four bytes, the first at the lowest address: little-endian (20_memory.md R74). PRESUMED (log 8). -/
def wordOfBytes (b0 b1 b2 b3 : Byte) : BitVec 32 := b3 ++ b2 ++ b1 ++ b0

/-- Decodes the first instruction of a list of bytes, and gives the rest of the list. Every instruction is four bytes long
(30_encoding.md R92). -/
def decode : List Byte → Except DecodeError (Instr × List Byte)
  | b0 :: b1 :: b2 :: b3 :: rest =>
    match decodeWord (wordOfBytes b0 b1 b2 b3) with
    | .ok i => .ok (i, rest)
    | .error e => .error e
  | _ => .error .truncated

/-! ## The encoder -/

/-- The 32-bit word of an instruction: the row of 30_encoding.md R91, field by field. -/
def encodeWord : Instr → BitVec 32
  | .mrsIdAa64isar2El1 t =>
    0b1101010100#10 ++ 1#1 ++ 1#1 ++ SysRegLoc.isar2.op0.extractLsb' 0 1 ++ SysRegLoc.isar2.op1 ++ SysRegLoc.isar2.crn
      ++ SysRegLoc.isar2.crm ++ SysRegLoc.isar2.op2 ++ (BitVec.ofFin t : BitVec 5)

/-- The four bytes of a word, the first at the lowest address. -/
def bytesOfWord (w : BitVec 32) : List Byte :=
  [w.extractLsb' 0 8, w.extractLsb' 8 8, w.extractLsb' 16 8, w.extractLsb' 24 8]

/-- The bytes of an instruction as they stand in memory. -/
def encode (i : Instr) : List Byte := bytesOfWord (encodeWord i)

/-! ## Words as the opcode table numbers them -/

/-- The 32-bit word whose bits below `nbits` are those of `w` and whose other bits are zero. -/
def tableWord (nbits w : Nat) : BitVec 32 := BitVec.ofNat 32 (w % 2 ^ nbits)

/-- The instruction the decoder reads from a word of the opcode table. -/
def decodeTableWord (nbits w : Nat) : Option Instr :=
  match decode (bytesOfWord (tableWord nbits w)) with
  | .ok (i, _) => some i
  | .error _ => none

end Sys2Proof
end

