-- ==== Sys2Proof/Machine/Memory.lean ====
section
/-! DEFINITION. The memory that holds the program text (20_memory.md R77; 95_test_vectors.md section 6): bytes at addresses below 2^64, in one
canonical form. The spec gives no data memory (R72); fetch is the one reader, and the load from outside the one writer. An address that is
not listed has no value (log 10). -/

namespace Sys2Proof

/-- Bytes by address: addresses strictly rising, each below 2^64 (`Memory.wf`). -/
abbrev Memory := List Host.Cell

/-- The byte at an address; none where nothing is placed (log 10). -/
def Memory.read : Memory → Nat → Option Byte
  | [], _ => none
  | (k, b) :: m, a => if k = a then some b else Memory.read m a

/-- Places one byte, keeping the addresses rising. -/
def Memory.write : Memory → Nat → Byte → Memory
  | [], a, v => [(a, v)]
  | (k, b) :: m, a, v =>
    if a < k then (a, v) :: (k, b) :: m
    else if a = k then (a, v) :: m
    else (k, b) :: Memory.write m a v

/-- Places bytes one after another from an address on. -/
def Memory.writeBytes : Memory → Nat → List Byte → Memory
  | m, _, [] => m
  | m, a, v :: vs => Memory.writeBytes (Memory.write m a v) (a + 1) vs

/-- Every address of the list is above `lo` (where there is a `lo`), they rise strictly, and all are 64-bit addresses. -/
def Memory.risesAbove : Option Nat → Memory → Bool
  | _, [] => true
  | lo, (k, _) :: m =>
    (match lo with
      | none => true
      | some l => decide (l < k))
    && decide (k < 2 ^ 64) && Memory.risesAbove (some k) m

/-- The canonical form. -/
def Memory.wf (m : Memory) : Bool := Memory.risesAbove none m

end Sys2Proof
end

