-- ==== Sys2Proof/Machine/State.lean ====
section
/-! DEFINITION. The state of the machine, the reasons a step can stop, and the state after reset. INVENTORY.md lists each field with its
rule. -/

namespace Sys2Proof.Machine

/-- Everything the spec gives the machine. No field is a function. -/
structure State where
  /-- X0 to X30 (10_state.md R53). Number 31 is XZR and has no storage. -/
  x : Vector Word 31
  /-- The program counter (10_state.md R54). -/
  pc : Word
  /-- PSTATE.EL (10_state.md R50). -/
  el : ExceptionLevel
  /-- EL2Enabled() (10_state.md R51): an input, not computed from other state (92_eei_decisions.md D12; log 20). -/
  el2Enabled : Bool
  /-- HCR_EL2.TGE (10_state.md R52). -/
  hcrEl2Tge : Bool
  /-- HCR_EL2.TID3 (10_state.md R52). -/
  hcrEl2Tid3 : Bool
  /-- The program text (20_memory.md R77; log 8). -/
  mem : Memory
  /-- The parameters of the PE, the register ID_AA64ISAR2_EL1 among them (10_state.md R20, 00_scope.md R3): constant, legal by
  construction (log 1, log 23). -/
  impl : Implementation
  /-- Which Exception levels the enclosing PE has (92_eei_decisions.md D13; log 37). -/
  levels : Levels
deriving DecidableEq, Repr

/-- Why the machine stops. -/
inductive Fault where
  /-- `Undefined()` (60_exceptions.md R160). Raised by the accessor at EL0 without FEAT_IDST; nothing is written. Safe: the run ends
  where hardware enters a handler the spec does not describe (log 17). -/
  | undefined
  /-- `SystemAccessTrap(target, class)` (60_exceptions.md R161), with exactly its two arguments. Raised by the accessor at EL0 with FEAT_IDST and at
  EL1 under HCR_EL2.TID3; nothing is written. Safe, as above (log 18). -/
  | systemAccessTrap (target : ExceptionLevel) (exceptionClass : Nat)
  /-- A misaligned program counter (20_memory.md R75). Raised by `step` before the fetch. Safe (log 9). -/
  | pcAlignment
  /-- A byte of the instruction was never placed. Raised by `step`'s fetch. Safe (log 10). -/
  | noInstruction
deriving DecidableEq, Repr

/-- Why the model gives no meaning. -/
inductive Refusal where
  /-- An instruction of the opcode table without a meaning: none is left. Raised by `exec`'s arms alone. Safe. -/
  | notModelled (mnemonic : String)
  /-- The fetched word is no instruction of this hardware (30_encoding.md R95). Raised by `step`. Safe (log 35). -/
  | notAnInstruction (why : DecodeError)
  /-- `pc + 4` passes the top of the address space (10_state.md R54: "the model refuses it"). Raised by a completed instruction's
  advance. Safe (log 16). -/
  | pcWrap
  /-- The configuration is not legal (10_state.md R48, 41_feature_predicates.md R146). Raised by `powerOn`. Safe (log 23). -/
  | illegalConfiguration
  /-- RPRFM on a PE that implements it: no source says what it does (93_implementation_defined.md U12). Raised by `rprfmHint`, which no
  instruction of the table calls. Safe (log 36). -/
  | rprfmImplemented
deriving DecidableEq, Repr

/-- The outcome of one step of this machine. -/
abbrev Outcome := Host.Outcome State Fault Refusal

/-- The state after reset of a PE with the given parameters and levels. The spec gives the register's value: the constant `ISAR2`
(10_state.md R57, 70_reset_and_hazards.md R190). The rest is named in log 3 (the level, PRESUMED) and log 5, 6, 7, 10 (DESIGN CHOICE; unsafe but
for 10). -/
def State.resetOf (impl : Implementation) (levels : Levels) : State where
  x := Vector.replicate 31 0#64
  pc := 0#64
  el := if levels.haveEL3 then .el3 else if levels.haveEL2 then .el2 else .el1
  el2Enabled := false
  hcrEl2Tge := false
  hcrEl2Tid3 := false
  mem := []
  impl := impl
  levels := levels

/-- The state after reset, of the implementation that `Config.chosen` stands for (log 2), with EL2 and EL3 (DESIGN CHOICE, log 4). -/
def State.reset : State :=
  State.resetOf Config.implementation { haveEL2 := true, haveEL3 := true }

end Sys2Proof.Machine
end

