-- ==== Sys2Proof/Machine/Flags.lean ====
section
/-! DEFINITION. The conditions over control bits. The accessor computes no condition flag and writes no field of PSTATE (10_state.md R55), so the only
Boolean computations of the spec are the two below. Each tests `EL2Enabled` first: without it the HCR_EL2 bits are not consulted (R52). -/

namespace Sys2Proof.Machine

/-- The value of ID_AA64ISAR2_EL1 (10_state.md R20). -/
def State.isar2 (s : State) : Word := s.impl.params.isar2

/-- `EL2Enabled() && HCR_EL2.TGE == '1'`: the EL0 trap goes to EL2 (40_mrs_access.md R111, 60_exceptions.md R168). -/
def State.tgeRoutes (s : State) : Bool := s.el2Enabled && s.hcrEl2Tge

/-- The three terms of 40_mrs_access.md R112: the EL1 read traps to EL2. -/
def State.tid3Traps (s : State) : Bool :=
  s.el2Enabled
  && (s.impl.params.haveFGT || !Isar2.isZero s.isar2 || s.impl.params.impDefTid3TrapsZeroReg)
  && s.hcrEl2Tid3

end Sys2Proof.Machine
end

