-- ==== Sys2Proof/Machine/Operands.lean ====
section
/-! DEFINITION. The one operand form: a general-purpose register by number (00_scope.md R5, 10_state.md R53, 30_encoding.md R93). -/

namespace Sys2Proof.Machine

/-- `x[t]`: XZR reads as zero. PRESUMED (log 14). -/
def State.readX (s : State) (t : RegNum) : Word :=
  if h : t.val < 31 then s.x[t.val] else 0#64

/-- `x[t] <- v`: a write to XZR is discarded. PRESUMED (log 14). -/
def State.writeX (s : State) (t : RegNum) (v : Word) : State :=
  if h : t.val < 31 then { s with x := s.x.set t.val v } else s

end Sys2Proof.Machine
end

