-- ==== Sys2Proof/Machine/Ops.lean ====
section
/-! DEFINITION. The shared operations: raising an exception, completing an instruction, reading the System register space, fetching, placing
program text, and powering on with a configuration. -/

namespace Sys2Proof.Machine

/-- `pc <- target`. -/
def State.setPc (s : State) (target : Word) : State := { s with pc := target }

/-- `raise <Exception>(info)`: "the instruction ends with the named outcome and writes nothing else" (00_scope.md R5). Taking either exception of this
hardware is this: the outcome is terminal (60_exceptions.md R160, R161, R166; log 17, log 18). -/
def raise (f : Fault) : Outcome := .fault f

/-- `AArch64.SystemAccessTrap(target, 0x18)`: the same class on every call (60_exceptions.md R161). -/
def raiseSystemAccessTrap (target : ExceptionLevel) : Outcome := raise (.systemAccessTrap target 0x18)

/-- Completes an instruction: `pc <- pc + 4` (10_state.md R54, 92_eei_decisions.md D11). Where `pc + 4` passes the top of the address space the model
refuses (R54; log 15, log 16). -/
def State.complete (s : State) : Outcome :=
  if s.pc.toNat + 4 < 2 ^ 64 then .next (s.setPc (s.pc + 4#64)) else .refused .pcWrap

/-- The contents of a location of the System register encoding space: exactly one is populated (20_memory.md R71, 92_eei_decisions.md D7). -/
def State.readSysReg (s : State) (loc : SysRegLoc) : Option Word :=
  if loc = SysRegLoc.isar2 then some s.isar2 else none

/-- `x[t] <- ISAR2; pc <- pc + 4` (40_mrs_access.md R110). The register is the one populated location. -/
def State.readIsar2 (s : State) (t : RegNum) : Outcome := (s.writeX t s.isar2).complete

/-- The program counter is a multiple of four (20_memory.md R75). PRESUMED (log 9). -/
def State.pcAligned (s : State) : Bool := s.pc.toNat % 4 == 0

/-- The four bytes of the instruction at the program counter (20_memory.md R74, 30_encoding.md R92; log 8). -/
def State.fetch (s : State) : Option (List Byte) :=
  match s.mem.read s.pc.toNat, s.mem.read (s.pc.toNat + 1), s.mem.read (s.pc.toNat + 2), s.mem.read (s.pc.toNat + 3) with
  | some b0, some b1, some b2, some b3 => some [b0, b1, b2, b3]
  | _, _, _, _ => none

/-- Places program text from outside the machine, at an address (log 11, log 12). -/
def State.place (s : State) (address : Nat) (bytes : List Byte) : State :=
  { s with mem := s.mem.writeBytes address bytes }

/-- Powers on a PE with the given parameters: "the model refuses such a configuration" where they are not legal (10_state.md R48,
41_feature_predicates.md R146). -/
def powerOn (p : Params) (levels : Levels) : Outcome :=
  match Implementation.ofParams? p with
  | some impl => .next (State.resetOf impl levels)
  | none => .refused .illegalConfiguration

end Sys2Proof.Machine
end

