-- ==== Sys2Proof/Machine/SysReg.lean ====
section
/-! DEFINITION. The family SYSREG_READ of the opcode table: its one instruction; and the one effect the spec gives of an instruction outside
the table, RPRFM where it is not implemented. -/

namespace Sys2Proof.Machine

/-- `MRS <Xt>, ID_AA64ISAR2_EL1`: the decision tree of 40_mrs_access.md R110, arm for arm (R111 to R113). -/
def execMrsIdAa64isar2El1 (t : RegNum) (s : State) : Outcome :=
  match s.el with
  | .el0 =>
    if s.impl.params.haveIDST then
      if s.tgeRoutes then raiseSystemAccessTrap .el2 else raiseSystemAccessTrap .el1
    else raise .undefined
  | .el1 => if s.tid3Traps then raiseSystemAccessTrap .el2 else s.readIsar2 t
  | .el2 => s.readIsar2 t
  | .el3 => s.readIsar2 t

/-- The RPRFM hint: "not implemented and is treated as a NOP" where the field is 0b0000 (10_state.md R25, 41_feature_predicates.md R132). What an
implemented RPRFM does is in no source (93_implementation_defined.md U12). No row of the opcode table and no encoding of any source leads here (log 36). -/
def rprfmHint (s : State) : Outcome :=
  if Isar2.haveRPRFM s.isar2 then .refused .rprfmImplemented else s.complete

end Sys2Proof.Machine
end

