-- ==== Sys2Proof/Machine/Dispatch.lean ====
section
/-! DEFINITION. One arm per constructor of Instr. -/

namespace Sys2Proof.Machine

def exec (i : Instr) (s : State) : Host.Outcome State Fault Refusal :=
  match i with
  | .mrsIdAa64isar2El1 t => Sys2Proof.Machine.execMrsIdAa64isar2El1 t s

end Sys2Proof.Machine
end

