-- ==== Sys2Proof/Machine/Step.lean ====
section
/-! DEFINITION. One step: check the program counter's alignment, fetch, decode, execute (20_memory.md R74, R75; 30_encoding.md R92, R95). -/

namespace Sys2Proof.Machine

/-- One step of the machine. The alignment is checked before the fetch (20_memory.md R75). -/
def step (s : State) : Host.Outcome State Fault Refusal :=
  if s.pcAligned then
    match s.fetch with
    | none => .fault .noInstruction
    | some bytes =>
      match decode bytes with
      | .ok (i, _) => exec i s
      | .error e => .refused (.notAnInstruction e)
  else .fault .pcAlignment

/-- The state with a table word placed where the next step fetches it: the load of a program from outside (log 12). -/
def State.withFetchWord (s : State) (nbits w : Nat) : State :=
  s.place s.pc.toNat (bytesOfWord (tableWord nbits w))

end Sys2Proof.Machine
end

