-- ==== Sys2Proof/Machine/Syndrome.lean ====
section
/-! DEFINITION. What a trap records, for an enclosing PE model (60_exceptions.md R162): a syndrome and a return address. The spec leaves both OPEN
(92_eei_decisions.md D24): `mrsTrapRecord`. It also offers values from general knowledge, which an enclosing model may adopt: `generalTrapRecord`. No step of this
machine reads either (log 19). -/

namespace Sys2Proof.Machine

/-- What a stop of the accessor with destination `t` at the address `pc` records beyond the class: the OPEN parameter for a trap. Of `Undefined` the source states
nothing ("not stated", R162), and the other faults are not the accessor's. -/
def Fault.trapRecord (t : RegNum) (pc : Word) : Fault → Option TrapRecord
  | .systemAccessTrap target _ => some (Config.trapSyndrome target t pc)
  | .undefined => none
  | .pcAlignment => none
  | .noInstruction => none

/-- What the accessor records at a state: its trap's record at the state's program counter, and nothing where it does not trap (R162's table). -/
def mrsTrapRecord (t : RegNum) (s : State) : Option TrapRecord :=
  match execMrsIdAa64isar2El1 t s with
  | .fault f => f.trapRecord t s.pc
  | .next _ => none
  | .refused _ => none

/-- The 25-bit ISS of class 0x18 for this accessor: [24:22] zero, Op0 [21:20], Op2 [19:17], Op1 [16:14], CRn [13:10], Rt [9:5], CRm [4:1],
Direction [0] with 1 a read (R162). PRESUMED (log 19). -/
def generalIss (t : RegNum) : BitVec 25 :=
  0#3 ++ SysRegLoc.isar2.op0 ++ SysRegLoc.isar2.op2 ++ SysRegLoc.isar2.op1 ++ SysRegLoc.isar2.crn ++ (BitVec.ofFin t : BitVec 5)
    ++ SysRegLoc.isar2.crm ++ 1#1

/-- `ESR_ELx` for this accessor's trap: EC [31:26], IL (bit 25) 1, ISS [24:0] (R162). PRESUMED (log 19). -/
def generalSyndrome (t : RegNum) : Word :=
  0#32 ++ 0x18#6 ++ 1#1 ++ generalIss t

/-- What the trap of the accessor at `pc` records in the wider architecture: that syndrome, and the address of the trapped instruction itself
(R162, R166; 93_implementation_defined.md G6). No fault address is recorded (R162). PRESUMED (log 19). -/
def generalTrapRecord (t : RegNum) (pc : Word) : TrapRecord where
  syndrome := generalSyndrome t
  returnAddress := pc

end Sys2Proof.Machine
end

