-- ==== Sys2Proof/Safety.lean ====
section
/-! DEFINITION. The terms that claims are stated in: the invariant of a run, the decision table of 40_mrs_access.md R114, what a step may change, and the
legality of a value written out as the spec's clauses. -/

namespace Sys2Proof

/-- The clauses W1 to W23 of 41_feature_predicates.md R146, one field each, as the spec writes them. -/
structure Isar2.Clauses (v : Word) (arch : Arch) (api apa gpi gpa : Nibble) : Prop where
  w1 : Isar2.res0Hi v = 0#8
  w2 : Isar2.res0Mid v = 0#4
  w3 : Isar2.cssc v ∈ [0b0000#4, 0b0001#4]
  w4 : Isar2.rprfm v ∈ [0b0000#4, 0b0001#4]
  w5 : Isar2.prfmslc v ∈ [0b0000#4, 0b0001#4]
  w6 : Isar2.sysinstr128 v ∈ [0b0000#4, 0b0001#4]
  w7 : Isar2.sysreg128 v ∈ [0b0000#4, 0b0001#4]
  w8 : Isar2.clrbhb v ∈ [0b0000#4, 0b0001#4]
  w9 : Isar2.pacFrac v ∈ [0b0000#4, 0b0001#4]
  w10 : Isar2.bc v ∈ [0b0000#4, 0b0001#4]
  w11 : Isar2.mops v ∈ [0b0000#4, 0b0001#4]
  w12 : Isar2.apa3 v ∈ [0b0000#4, 0b0001#4, 0b0010#4, 0b0011#4, 0b0100#4, 0b0101#4]
  w13 : Isar2.gpa3 v ∈ [0b0000#4, 0b0001#4]
  w14 : Isar2.rpres v ∈ [0b0000#4, 0b0001#4]
  w15 : Isar2.wfxt v ∈ [0b0000#4, 0b0010#4]
  w16 : arch.ge_v9_4 = true → Isar2.cssc v = 0b0001#4
  w17 : arch.ge_v8_9 = true → Isar2.clrbhb v = 0b0001#4
  w18 : arch.ge_v8_8 = true → Isar2.bc v = 0b0001#4
  w19 : arch.ge_v8_8 = true → Isar2.mops v = 0b0001#4
  w20 : arch.ge_v8_7 = true → Isar2.wfxt v = 0b0010#4
  w21 : arch.ge_v8_6 = true ∧ api = 0#4 ∧ apa = 0#4 → Isar2.apa3 v ∈ [0b0011#4, 0b0100#4, 0b0101#4]
  w22 : api ≠ 0#4 ∨ apa ≠ 0#4 → Isar2.apa3 v = 0b0000#4
  w23 : gpi ≠ 0#4 ∨ gpa ≠ 0#4 → Isar2.gpa3 v = 0b0000#4

end Sys2Proof

namespace Sys2Proof.Machine

/-- The state names only Exception levels the PE has, and EL2 is enabled only where it is implemented (10_state.md R51, 92_eei_decisions.md D13). -/
def State.levelsConsistent (s : State) : Bool :=
  Isar2.implies s.el2Enabled s.levels.haveEL2
  && Isar2.implies (s.el == .el2) s.levels.haveEL2
  && Isar2.implies (s.el == .el3) s.levels.haveEL3

/-- The invariant of a run: memory in its canonical form, the program counter aligned, the levels consistent. -/
structure State.Inv (s : State) : Prop where
  memory : s.mem.wf = true
  aligned : s.pcAligned = true
  levels : s.levelsConsistent = true

/-- Everything but the general-purpose registers and the program counter is the same (40_mrs_access.md R115). Memory is compared as data, so every byte
reads the same. -/
structure State.SameControl (s s' : State) : Prop where
  el : s'.el = s.el
  el2Enabled : s'.el2Enabled = s.el2Enabled
  hcrEl2Tge : s'.hcrEl2Tge = s.hcrEl2Tge
  hcrEl2Tid3 : s'.hcrEl2Tid3 = s.hcrEl2Tid3
  mem : s'.mem = s.mem
  impl : s'.impl = s.impl
  levels : s'.levels = s.levels

/-- A successful read's address after it exists: `pc + 4` stays below 2^64 (10_state.md R54). -/
def State.pcCanAdvance (s : State) : Bool := decide (s.pc.toNat + 4 < 2 ^ 64)

/-- The accessor reads at this state, in the spec's own terms (60_exceptions.md R169; 40_mrs_access.md R112 for EL1): never at EL0, at EL1 unless all three
terms of the TID3 trap hold, always at EL2 and EL3. -/
def State.mayRead (s : State) : Prop :=
  s.el = .el2 ∨ s.el = .el3
  ∨ (s.el = .el1
      ∧ ¬ (s.el2Enabled = true
            ∧ (s.impl.params.haveFGT = true ∨ s.isar2 ≠ 0#64 ∨ s.impl.params.impDefTid3TrapsZeroReg = true)
            ∧ s.hcrEl2Tid3 = true))

/-- The HCR_EL2 bits replaced (10_state.md R52: inputs, which no instruction writes). -/
def State.setControls (s : State) (tge tid3 : Bool) : State := { s with hcrEl2Tge := tge, hcrEl2Tid3 := tid3 }

/-- An outcome with its next state, if there is one, passed through a function. -/
def mapNext (f : State → State) : Outcome → Outcome
  | .next s => .next (f s)
  | .fault r => .fault r
  | .refused r => .refused r

/-- The last column of the decision table. -/
inductive AccessOutcome where
  | undefined
  | trap (target : ExceptionLevel)
  | read
deriving DecidableEq, Repr

/-- A row of the decision table of 40_mrs_access.md R114; `none` is "-", an input that is not consulted. -/
structure AccessRow where
  el : ExceptionLevel
  haveIDST : Option Bool := none
  el2Enabled : Option Bool := none
  tge : Option Bool := none
  haveFGT : Option Bool := none
  zero : Option Bool := none
  imp : Option Bool := none
  tid3 : Option Bool := none
  outcome : AccessOutcome
deriving DecidableEq, Repr

/-- The twelve rows of 40_mrs_access.md R114, in order. -/
def accessTable : List AccessRow :=
  [ { el := .el0, haveIDST := some false, outcome := .undefined },
    { el := .el0, haveIDST := some true, el2Enabled := some false, outcome := .trap .el1 },
    { el := .el0, haveIDST := some true, el2Enabled := some true, tge := some false, outcome := .trap .el1 },
    { el := .el0, haveIDST := some true, el2Enabled := some true, tge := some true, outcome := .trap .el2 },
    { el := .el1, el2Enabled := some false, outcome := .read },
    { el := .el1, el2Enabled := some true, tid3 := some false, outcome := .read },
    { el := .el1, el2Enabled := some true, haveFGT := some true, tid3 := some true, outcome := .trap .el2 },
    { el := .el1, el2Enabled := some true, haveFGT := some false, zero := some false, tid3 := some true, outcome := .trap .el2 },
    { el := .el1, el2Enabled := some true, haveFGT := some false, zero := some true, imp := some true, tid3 := some true,
      outcome := .trap .el2 },
    { el := .el1, el2Enabled := some true, haveFGT := some false, zero := some true, imp := some false, tid3 := some true,
      outcome := .read },
    { el := .el2, outcome := .read },
    { el := .el3, outcome := .read } ]

/-- A column that is not consulted fits any value. -/
def fits (column : Option Bool) (value : Bool) : Bool :=
  match column with
  | none => true
  | some b => b == value

/-- The row applies to the inputs of a state. -/
def AccessRow.matches (r : AccessRow) (s : State) : Bool :=
  r.el == s.el && fits r.haveIDST s.impl.params.haveIDST && fits r.el2Enabled s.el2Enabled && fits r.tge s.hcrEl2Tge
  && fits r.haveFGT s.impl.params.haveFGT && fits r.zero (Isar2.isZero s.isar2)
  && fits r.imp s.impl.params.impDefTid3TrapsZeroReg && fits r.tid3 s.hcrEl2Tid3

/-- The outcome a row gives for destination `t`, as an outcome of the machine. The read advances the program counter or is refused at the top of the
address space (10_state.md R54). -/
def AccessRow.gives (r : AccessRow) (t : RegNum) (s : State) : Outcome :=
  match r.outcome with
  | .undefined => .fault .undefined
  | .trap target => .fault (.systemAccessTrap target 0x18)
  | .read =>
    if s.pcCanAdvance then .next ((s.writeX t s.isar2).setPc (s.pc + 4#64)) else .refused .pcWrap

end Sys2Proof.Machine
end

