-- ==== Sys2Proof/Certificates/Slice0/Obligations.lean ====
section
/-! DEFINITION. The statements for the provers. Each docstring names the rule of spec/ it formalises; where a clause rests on a choice of the model
or on a passage the spec marks as its own, the docstring names the log entry. -/

open Sys2Proof Sys2Proof.Machine

/-! ## The accessor at each Exception level -/

/-- 40_mrs_access.md R111: at EL0 the outcome is a trap with FEAT_IDST and Undefined without it; the trap goes to EL2 exactly when EL2 is enabled and
TGE is set. No other input appears. -/
def Obligations.El0NeverReadsTheRegister : Prop :=
  ∀ (t : RegNum) (s : State), s.el = .el0 →
    exec (.mrsIdAa64isar2El1 t) s =
      if s.impl.params.haveIDST = true then
        if s.el2Enabled = true ∧ s.hcrEl2Tge = true then .fault (.systemAccessTrap .el2 0x18)
        else .fault (.systemAccessTrap .el1 0x18)
      else .fault .undefined

/-- 40_mrs_access.md R112: at EL1 the outcome is the trap to EL2 when all three terms hold, and the read otherwise. The read is stated for a program
counter that can advance (10_state.md R54) and a destination with storage; `MrsCompletesWithItsWholeEffect` says the rest. -/
def Obligations.El1ReadsUnlessTheThreeTermsHold : Prop :=
  ∀ (t : RegNum) (s : State), s.el = .el1 →
    ((s.el2Enabled = true
        ∧ (s.impl.params.haveFGT = true ∨ s.isar2 ≠ 0#64 ∨ s.impl.params.impDefTid3TrapsZeroReg = true)
        ∧ s.hcrEl2Tid3 = true) →
      exec (.mrsIdAa64isar2El1 t) s = .fault (.systemAccessTrap .el2 0x18))
    ∧ (¬ (s.el2Enabled = true
        ∧ (s.impl.params.haveFGT = true ∨ s.isar2 ≠ 0#64 ∨ s.impl.params.impDefTid3TrapsZeroReg = true)
        ∧ s.hcrEl2Tid3 = true) →
      (∀ f, exec (.mrsIdAa64isar2El1 t) s ≠ .fault f)
      ∧ (s.pc.toNat + 4 < 2 ^ 64 →
          ∃ s', exec (.mrsIdAa64isar2El1 t) s = .next s' ∧ (t ≠ 31 → s'.readX t = s.isar2)))

/-- 40_mrs_access.md R113: at EL2 and EL3 the read, whatever the parameters and control bits. As for EL1, the read is stated where the program counter can
advance. -/
def Obligations.El2AndEl3AlwaysRead : Prop :=
  ∀ (t : RegNum) (s : State), s.el = .el2 ∨ s.el = .el3 →
    (∀ f, exec (.mrsIdAa64isar2El1 t) s ≠ .fault f)
    ∧ (s.pc.toNat + 4 < 2 ^ 64 →
        ∃ s', exec (.mrsIdAa64isar2El1 t) s = .next s' ∧ (t ≠ 31 → s'.readX t = s.isar2))

/-- Completion of the one instruction, with its result and its frame (40_mrs_access.md R110, R115, R116): where the level may read and the program counter can
advance, a next state, in which `x[t]` is the register (zero for XZR, whose write is discarded: log 14), the program counter is four on (log 15), and every other
register, every control and every byte of memory is as before. -/
def Obligations.MrsCompletesWithItsWholeEffect : Prop :=
  ∀ (t : RegNum) (s : State), s.mayRead → s.pc.toNat + 4 < 2 ^ 64 →
    ∃ s', exec (.mrsIdAa64isar2El1 t) s = .next s'
      ∧ s'.readX t = (if t = 31 then 0#64 else s.isar2)
      ∧ s'.pc.toNat = s.pc.toNat + 4
      ∧ (∀ j, j ≠ t → s'.readX j = s.readX j)
      ∧ s.SameControl s'
      ∧ ∀ a, s'.mem.read a = s.mem.read a

/-- The frame of every next state (40_mrs_access.md R115): `x[t]` and the program counter alone may differ, so no instruction writes the register, PSTATE.EL, HCR_EL2, a parameter or
memory; and the state was one that may read. -/
def Obligations.MrsFrameOfEveryNextState : Prop :=
  ∀ (t : RegNum) (s s' : State), exec (.mrsIdAa64isar2El1 t) s = .next s' →
    s.mayRead
    ∧ (∀ j, j ≠ t → s'.readX j = s.readX j)
    ∧ s.SameControl s'
    ∧ s'.isar2 = s.isar2
    ∧ ∀ a, s'.mem.read a = s.mem.read a

/-- 40_mrs_access.md R116, t = 31: on success the value is discarded and only the program counter changes (log 14, log 15). -/
def Obligations.ZeroRegisterDestinationOnlyAdvances : Prop :=
  ∀ s : State, s.mayRead → s.pc.toNat + 4 < 2 ^ 64 →
    exec (.mrsIdAa64isar2El1 31) s = .next { s with pc := s.pc + 4#64 }

/-- 40_mrs_access.md R116, t = 31: the checks run as for any t, so the destination has no part in a trap, in Undefined (log 14) or in the refusal at the top of the address space (log 16). -/
def Obligations.DestinationHasNoPartInStops : Prop :=
  ∀ (t u : RegNum) (s : State),
    (∀ f, exec (.mrsIdAa64isar2El1 t) s = .fault f ↔ exec (.mrsIdAa64isar2El1 u) s = .fault f)
    ∧ (∀ r, exec (.mrsIdAa64isar2El1 t) s = .refused r ↔ exec (.mrsIdAa64isar2El1 u) s = .refused r)

/-- 40_mrs_access.md R114: the twelve rows are exhaustive and mutually exclusive, and the machine does what the one row that applies says. What a read row does besides `x[t] <- ISAR2` is not R114's: its `pc + 4` is 10_state.md R54 and
92_eei_decisions.md D11 (log 15, PRESUMED), and its refusal pcWrap where that passes the top of the address space is the model's reading of R54 (log 16, DEDUCED). -/
def Obligations.DecisionTableIsExactAndExclusive : Prop :=
  ∀ (t : RegNum) (s : State),
    ∃ r ∈ accessTable, r.matches s = true
      ∧ (∀ r' ∈ accessTable, r'.matches s = true → r' = r)
      ∧ exec (.mrsIdAa64isar2El1 t) s = r.gives t s

/-- 60_exceptions.md R160: Undefined is raised in exactly one case. -/
def Obligations.UndefinedInExactlyOneCase : Prop :=
  ∀ (t : RegNum) (s : State),
    exec (.mrsIdAa64isar2El1 t) s = .fault .undefined ↔ s.el = .el0 ∧ s.impl.params.haveIDST = false

/-- 60_exceptions.md R161: the trap is raised in rows 2, 3, 4, 7, 8 and 9 of 40_mrs_access.md R114, with the row's target and always with 0x18. -/
def Obligations.SystemAccessTrapExactlyInItsRows : Prop :=
  ∀ (t : RegNum) (s : State) (target : ExceptionLevel) (c : Nat),
    exec (.mrsIdAa64isar2El1 t) s = .fault (.systemAccessTrap target c) ↔
      c = 0x18 ∧
      ((target = .el1 ∧ s.el = .el0 ∧ s.impl.params.haveIDST = true ∧ (s.el2Enabled = false ∨ s.hcrEl2Tge = false))
      ∨ (target = .el2 ∧ s.el = .el0 ∧ s.impl.params.haveIDST = true ∧ s.el2Enabled = true ∧ s.hcrEl2Tge = true)
      ∨ (target = .el2 ∧ s.el = .el1 ∧ s.el2Enabled = true ∧ s.hcrEl2Tid3 = true
          ∧ (s.impl.params.haveFGT = true
            ∨ (s.impl.params.haveFGT = false ∧ s.isar2 ≠ 0#64)
            ∨ (s.impl.params.haveFGT = false ∧ s.isar2 = 0#64 ∧ s.impl.params.impDefTid3TrapsZeroReg = true))))

/-- 10_state.md R54, 92_eei_decisions.md D11: a read whose `pc + 4` passes the top of the address space is refused by name (the spec's own choice; log 16). -/
def Obligations.ReadAtTheTopOfTheAddressSpaceIsRefused : Prop :=
  ∀ (t : RegNum) (s : State), s.mayRead → s.pc = 0xFFFFFFFFFFFFFFFC#64 →
    exec (.mrsIdAa64isar2El1 t) s = .refused .pcWrap

/-- 20_memory.md R76: the read is idempotent. A second one leaves the same state, apart from the program counter. That this is exactly four on is not R76's: 92_eei_decisions.md D11 (log 15, PRESUMED). -/
def Obligations.SecondReadOnlyAdvances : Prop :=
  ∀ (t : RegNum) (s s₁ s₂ : State), exec (.mrsIdAa64isar2El1 t) s = .next s₁ → exec (.mrsIdAa64isar2El1 t) s₁ = .next s₂ →
    s₂ = { s₁ with pc := s₁.pc + 4#64 }

/-- 00_scope.md R2, 92_eei_decisions.md D28: an implementation that predates the register answers with zero at EL1 (untrapped), EL2 and EL3 (log 29). -/
def Obligations.PredatingImplementationReadsZero : Prop :=
  ∀ (t : RegNum) (s : State), s.isar2 = 0#64 → s.mayRead → s.pc.toNat + 4 < 2 ^ 64 →
    ∃ s', exec (.mrsIdAa64isar2El1 t) s = .next s' ∧ s'.readX t = 0#64

/-! ## What the outcome cannot depend on -/

/-- 40_mrs_access.md R111: at EL0 the register's value, FEAT_FGT, the IMPLEMENTATION DEFINED choice and TID3 play no part, nor do the destination, the registers, the program counter or memory:
two EL0 states that agree on FEAT_IDST and on the routing stop alike. -/
def Obligations.El0OutcomeDependsOnlyOnIdstAndRouting : Prop :=
  ∀ (t u : RegNum) (s₁ s₂ : State), s₁.el = .el0 → s₂.el = .el0 →
    s₁.impl.params.haveIDST = s₂.impl.params.haveIDST →
    (s₁.el2Enabled = true ∧ s₁.hcrEl2Tge = true ↔ s₂.el2Enabled = true ∧ s₂.hcrEl2Tge = true) →
    exec (.mrsIdAa64isar2El1 t) s₁ = exec (.mrsIdAa64isar2El1 u) s₂

/-- 40_mrs_access.md R112: at EL1 neither TGE nor FEAT_IDST plays a part: whether and how the read traps depends on the inputs of the three terms alone. -/
def Obligations.El1TrapDependsOnlyOnTheThreeTerms : Prop :=
  ∀ (t u : RegNum) (s₁ s₂ : State), s₁.el = .el1 → s₂.el = .el1 →
    s₁.el2Enabled = s₂.el2Enabled → s₁.hcrEl2Tid3 = s₂.hcrEl2Tid3 →
    s₁.impl.params.haveFGT = s₂.impl.params.haveFGT →
    (s₁.isar2 = 0#64 ↔ s₂.isar2 = 0#64) →
    s₁.impl.params.impDefTid3TrapsZeroReg = s₂.impl.params.impDefTid3TrapsZeroReg →
    ∀ f, exec (.mrsIdAa64isar2El1 t) s₁ = .fault f ↔ exec (.mrsIdAa64isar2El1 u) s₂ = .fault f

/-- 40_mrs_access.md R116, 10_state.md R52: while EL2 is not enabled TGE and TID3 are not consulted: replacing both changes the outcome by that replacement alone. -/
def Obligations.ControlsUnreadWhileEl2Disabled : Prop :=
  ∀ (i : Instr) (s : State) (tge tid3 : Bool), s.el2Enabled = false →
    exec i (s.setControls tge tid3) = mapNext (fun s' => s'.setControls tge tid3) (exec i s)

/-- 10_state.md R51, 92_eei_decisions.md D13 (general knowledge; log 37): on a PE without EL2, with the levels consistent, nothing traps to EL2. -/
def Obligations.NoTrapToAnAbsentEl2 : Prop :=
  ∀ (i : Instr) (s : State) (c : Nat), s.levelsConsistent = true → s.levels.haveEL2 = false →
    exec i s ≠ .fault (.systemAccessTrap .el2 c)

/-! ## The machine -/

/-- A step runs the decoded instruction: an aligned program counter, four bytes placed there, and an instruction they decode to. Nothing is added around `exec`
(20_memory.md R74, R75; 30_encoding.md R92; log 8, log 9). -/
def Obligations.StepRunsTheDecodedInstruction : Prop :=
  ∀ (s : State) (b0 b1 b2 b3 : Byte) (i : Instr) (rest : List Byte),
    s.pc.toNat % 4 = 0 →
    s.mem.read s.pc.toNat = some b0 → s.mem.read (s.pc.toNat + 1) = some b1 →
    s.mem.read (s.pc.toNat + 2) = some b2 → s.mem.read (s.pc.toNat + 3) = some b3 →
    decode [b0, b1, b2, b3] = .ok (i, rest) →
    step s = exec i s

/-- Where a step stops before any instruction: a misaligned program counter, a byte never placed, a word that is no instruction of this hardware
(20_memory.md R75, 30_encoding.md R95; log 9, log 10, log 35). -/
def Obligations.StepStopsBeforeExecutionByName : Prop :=
  (∀ s : State, s.pc.toNat % 4 ≠ 0 → step s = .fault .pcAlignment)
  ∧ (∀ (s : State) (k : Nat), s.pc.toNat % 4 = 0 → k < 4 → s.mem.read (s.pc.toNat + k) = none → step s = .fault .noInstruction)
  ∧ (∀ (s : State) (b0 b1 b2 b3 : Byte) (e : DecodeError), s.pc.toNat % 4 = 0 →
      s.mem.read s.pc.toNat = some b0 → s.mem.read (s.pc.toNat + 1) = some b1 →
      s.mem.read (s.pc.toNat + 2) = some b2 → s.mem.read (s.pc.toNat + 3) = some b3 →
      decode [b0, b1, b2, b3] = .error e → step s = .refused (.notAnInstruction e))

/-- An instruction placed at an aligned program counter is the one the next step runs, whatever stood there before (log 12). -/
def Obligations.PlacedInstructionIsTheOneThatRuns : Prop :=
  ∀ (i : Instr) (s : State), s.pc.toNat % 4 = 0 →
    step (s.withFetchWord 32 (encodeWord i).toNat) = exec i (s.withFetchWord 32 (encodeWord i).toNat)

/-- The invariant is kept by every step, from every state that has it: memory canonical (log 8, log 11), program counter aligned (log 9; it rests on the advance by four, log 15), levels consistent (log 37). -/
def Obligations.EveryStepKeepsTheInvariant : Prop :=
  ∀ s s' : State, s.Inv → step s = .next s' → s'.Inv

/-- The state after reset has the invariant, whatever the implementation. What makes it so is the model's choice, since the spec gives EL, EL2Enabled, pc and memory no reset value
(70_reset_and_hazards.md R190): the level of log 3 (PRESUMED), and EL2Enabled of log 5, the address 0 of log 7 and the empty memory of log 10 (DESIGN CHOICE); `State.reset`'s levels are
log 4's (DESIGN CHOICE). -/
def Obligations.ResetMeetsTheInvariant : Prop :=
  State.reset.Inv ∧ ∀ (impl : Implementation) (levels : Levels), (State.resetOf impl levels).Inv

/-- A completed step, whatever it ran, wrote the register's value into at most one general-purpose register, moved the program counter by four, and changed nothing else; and it
did not run at EL0 (40_mrs_access.md R111, R115; 60_exceptions.md R169). That the program counter is exactly four on is 10_state.md R54 and 92_eei_decisions.md D11 (log 15, PRESUMED), and
that it does not wrap is the refusal of log 16 (DEDUCED). -/
def Obligations.CompletedStepChangesOneRegisterAndPc : Prop :=
  ∀ s s' : State, step s = .next s' →
    s.el ≠ .el0 ∧ s'.pc.toNat = s.pc.toNat + 4 ∧ s.SameControl s'
    ∧ ∃ t : RegNum, (t ≠ 31 → s'.readX t = s.isar2) ∧ ∀ j, j ≠ t → s'.readX j = s.readX j

/-- Every way a step can stop: the two exceptions of 60_exceptions.md R162, the trap to EL1 or EL2 with 0x18, and the stops of log 9, log 10, log 16 and log 35. -/
def Obligations.StepStopsOnlyByTheNamedReasons : Prop :=
  ∀ s : State,
    (∀ f, step s = .fault f →
      f = .undefined ∨ f = .systemAccessTrap .el1 0x18 ∨ f = .systemAccessTrap .el2 0x18 ∨ f = .pcAlignment ∨ f = .noInstruction)
    ∧ (∀ r, step s = .refused r → r = .pcWrap ∨ ∃ e, r = .notAnInstruction e)

/-- 10_state.md R49 (92_eei_decisions.md D1; log 31) and 20_memory.md R77 (D17; log 11): along any run the register, the other parameters, the program text, the Exception level and the controls stay
as they were at its start. -/
def Obligations.RunsKeepRegisterAndProgramText : Prop :=
  ∀ (k : Nat) (s s' : State), Sys2Proof.core.run k s = .next s' → s.SameControl s' ∧ s'.isar2 = s.isar2

/-- Sequencing (95_test_vectors.md section 6; log 15): a run of k completed steps moves the program counter by exactly 4k, without wrapping. -/
def Obligations.RunOfReadsAdvancesByFourEach : Prop :=
  ∀ (k : Nat) (s s' : State), Sys2Proof.core.run k s = .next s' → s'.pc.toNat = s.pc.toNat + 4 * k

/-- 20_memory.md R77: every successful read on one PE returns the same value, at any two points of runs of that PE, even where the levels and controls of the two runs differ (log 31). -/
def Obligations.EverySuccessfulReadReturnsTheSameValue : Prop :=
  ∀ (k₁ k₂ : Nat) (t₁ t₂ : RegNum) (s₁ s₂ m₁ m₂ e₁ e₂ : State),
    s₁.impl = s₂.impl → t₁ ≠ 31 → t₂ ≠ 31 →
    Sys2Proof.core.run k₁ s₁ = .next m₁ → exec (.mrsIdAa64isar2El1 t₁) m₁ = .next e₁ →
    Sys2Proof.core.run k₂ s₂ = .next m₂ → exec (.mrsIdAa64isar2El1 t₂) m₂ = .next e₂ →
    e₁.readX t₁ = e₂.readX t₂

/-! ## Encoding -/

/-- Decoding and encoding agree in both directions: the bytes that decode to an instruction and a rest are exactly that instruction's bytes followed by the rest
(30_encoding.md R91, R92: general knowledge; log 13, log 8). -/
def Obligations.DecodeAndEncodeAgree : Prop :=
  ∀ (bytes rest : List Byte) (i : Instr), decode bytes = .ok (i, rest) ↔ bytes = encode i ++ rest

/-- 30_encoding.md section 5, the decoder: a word is the accessor exactly when its bits under the mask are the match, with `t = word[4:0]` (R91, R93: general knowledge; log 13). -/
def Obligations.DecoderAdmitsExactlyTheTableRow : Prop :=
  ∀ (w : BitVec 32) (t : RegNum),
    decodeWord w = .ok (.mrsIdAa64isar2El1 t) ↔ w &&& 0xFFFFFFE0#32 = 0xD5380640#32 ∧ t.val = w.toNat % 32

/-- 30_encoding.md R91, R95: every System register move, built from its fields, is read as what it is: the accessor, the write form of the same register, or a move of another location, refused with that
location's name (log 13, log 35). -/
def Obligations.EverySystemRegisterMoveIsClassified : Prop :=
  ∀ (l o0 : BitVec 1) (op1 : BitVec 3) (crn crm : BitVec 4) (op2 : BitVec 3) (rt : BitVec 5),
    decodeWord (0b1101010100#10 ++ l ++ 1#1 ++ o0 ++ op1 ++ crn ++ crm ++ op2 ++ rt) =
      if (⟨1#1 ++ o0, op1, crn, crm, op2⟩ : SysRegLoc) = ⟨0b11#2, 0#3, 0#4, 6#4, 2#3⟩ then
        if l = 1#1 then .ok (.mrsIdAa64isar2El1 rt.toFin) else .error .writeAccessor
      else
        if l = 1#1 then .error (.otherRegisterRead ⟨1#1 ++ o0, op1, crn, crm, op2⟩)
        else .error (.otherRegisterWrite ⟨1#1 ++ o0, op1, crn, crm, op2⟩)

/-- 95_test_vectors.md section 5: a few of the spec's own words, as the opcode table numbers them. -/
def Obligations.WordsOfTheSpecDecode : Prop :=
  decodeTableWord 32 0b11010101001110000000011001000000 = some (.mrsIdAa64isar2El1 0)
  ∧ decodeTableWord 32 0b11010101001110000000011001000101 = some (.mrsIdAa64isar2El1 5)
  ∧ decodeTableWord 32 0b11010101001110000000011001011111 = some (.mrsIdAa64isar2El1 31)
  ∧ decodeTableWord 32 0b11010101000110000000011001000000 = none

/-- 20_memory.md R71: one populated location, (3, 0, 0, 6, 2), which holds the register. -/
def Obligations.OneSystemRegisterLocationIsPopulated : Prop :=
  ∀ (s : State) (loc : SysRegLoc) (v : Word),
    s.readSysReg loc = some v ↔ loc = ⟨0b11#2, 0b000#3, 0b0000#4, 0b0110#4, 0b010#3⟩ ∧ v = s.isar2

/-! ## What the register's value says -/

/-- 10_state.md R21, 41_feature_predicates.md R130: the ranges tile the register. Fields and concatenation are inverse to one another, and as a number the value is the sum of its fields. -/
def Obligations.FieldsTileTheRegister : Prop :=
  (∀ f : Isar2Fields, Isar2.fields (Isar2.compose f) = f ∧ Isar2.reservedBitsZero (Isar2.compose f) = true)
  ∧ (∀ v : Word, Isar2.reservedBitsZero v = true → Isar2.compose (Isar2.fields v) = v)
  ∧ (∀ f : Isar2Fields, (Isar2.compose f).toNat =
      f.cssc.toNat * 2 ^ 52 + f.rprfm.toNat * 2 ^ 48 + f.prfmslc.toNat * 2 ^ 40 + f.sysinstr128.toNat * 2 ^ 36
      + f.sysreg128.toNat * 2 ^ 32 + f.clrbhb.toNat * 2 ^ 28 + f.pacFrac.toNat * 2 ^ 24 + f.bc.toNat * 2 ^ 20
      + f.mops.toNat * 2 ^ 16 + f.apa3.toNat * 2 ^ 12 + f.gpa3.toNat * 2 ^ 8 + f.rpres.toNat * 2 ^ 4 + f.wfxt.toNat)

/-- 41_feature_predicates.md R130: each field as an integer, `(uint(v) >> lo) mod 2^(hi-lo+1)`. -/
def Obligations.FieldsAsIntegers : Prop :=
  ∀ v : Word,
    (Isar2.res0Hi v).toNat = v.toNat >>> 56 % 2 ^ 8 ∧ (Isar2.cssc v).toNat = v.toNat >>> 52 % 2 ^ 4
    ∧ (Isar2.rprfm v).toNat = v.toNat >>> 48 % 2 ^ 4 ∧ (Isar2.res0Mid v).toNat = v.toNat >>> 44 % 2 ^ 4
    ∧ (Isar2.prfmslc v).toNat = v.toNat >>> 40 % 2 ^ 4 ∧ (Isar2.sysinstr128 v).toNat = v.toNat >>> 36 % 2 ^ 4
    ∧ (Isar2.sysreg128 v).toNat = v.toNat >>> 32 % 2 ^ 4 ∧ (Isar2.clrbhb v).toNat = v.toNat >>> 28 % 2 ^ 4
    ∧ (Isar2.pacFrac v).toNat = v.toNat >>> 24 % 2 ^ 4 ∧ (Isar2.bc v).toNat = v.toNat >>> 20 % 2 ^ 4
    ∧ (Isar2.mops v).toNat = v.toNat >>> 16 % 2 ^ 4 ∧ (Isar2.apa3 v).toNat = v.toNat >>> 12 % 2 ^ 4
    ∧ (Isar2.gpa3 v).toNat = v.toNat >>> 8 % 2 ^ 4 ∧ (Isar2.rpres v).toNat = v.toNat >>> 4 % 2 ^ 4
    ∧ (Isar2.wfxt v).toNat = v.toNat % 2 ^ 4

/-- 41_feature_predicates.md R146: the legality predicate is the conjunction of the clauses W1 to W23 (W21 by 92_eei_decisions.md D5: log 24). -/
def Obligations.LegalityIsTheTwentyThreeClauses : Prop :=
  ∀ (v : Word) (arch : Arch) (api apa gpi gpa : Nibble),
    Isar2.wfIsar2 v arch api apa gpi gpa = true ↔ Isar2.Clauses v arch api apa gpi gpa

/-- 10_state.md R24, R31, R35, R37, R47: the version constraints, of the value a successful read returns. That CSSC and CLRBHB are 1, where the source says only that 0b0000 is not
permitted, is what R24 and R31 derive from the defined values: it needs a reserved value to be illegal (92_eei_decisions.md D2; log 23). -/
def Obligations.ReadValueObeysTheVersionConstraints : Prop :=
  ∀ (t : RegNum) (s s' : State), t ≠ 31 → exec (.mrsIdAa64isar2El1 t) s = .next s' →
    (s.impl.params.arch.ge_v9_4 = true → (s'.readX t).extractLsb' 52 4 = 0b0001#4)
    ∧ (s.impl.params.arch.ge_v8_9 = true → (s'.readX t).extractLsb' 28 4 = 0b0001#4)
    ∧ (s.impl.params.arch.ge_v8_8 = true → (s'.readX t).extractLsb' 20 4 = 0b0001#4)
    ∧ (s.impl.params.arch.ge_v8_8 = true → (s'.readX t).extractLsb' 16 4 = 0b0001#4)
    ∧ (s.impl.params.arch.ge_v8_7 = true → (s'.readX t).extractLsb' 0 4 = 0b0010#4)

/-- 10_state.md R41, R44: the constraints against ID_AA64ISAR1_EL1, of the value a successful read returns, at every architecture version. -/
def Obligations.ReadValueObeysTheCrossRegisterConstraints : Prop :=
  ∀ (t : RegNum) (s s' : State), t ≠ 31 → exec (.mrsIdAa64isar2El1 t) s = .next s' →
    (s.impl.params.isar1Api ≠ 0#4 ∨ s.impl.params.isar1Apa ≠ 0#4 → (s'.readX t).extractLsb' 12 4 = 0b0000#4)
    ∧ (s.impl.params.isar1Gpi ≠ 0#4 ∨ s.impl.params.isar1Gpa ≠ 0#4 → (s'.readX t).extractLsb' 8 4 = 0b0000#4)

/-- 10_state.md R40 as 90_conflicts.md C5 and 92_eei_decisions.md D5 settle it (log 24): from Armv8.6, where ID_AA64ISAR1_EL1 reports no address authentication, APA3 is 3, 4 or 5. -/
def Obligations.Apa3FromArmv86 : Prop :=
  ∀ s : State, s.impl.params.arch.ge_v8_6 = true → s.impl.params.isar1Api = 0#4 → s.impl.params.isar1Apa = 0#4 →
    (Isar2.apa3 s.isar2).toNat ∈ [3, 4, 5]

/-- 95_test_vectors.md section 2 (10_state.md R22, R26, R48; log 23): the value a successful read returns has no bit outside the mask of the bits that a legal value can have, and is at most the largest legal value. -/
def Obligations.ReadValueStaysInsideTheLegalMask : Prop :=
  ∀ (t : RegNum) (s s' : State), t ≠ 31 → exec (.mrsIdAa64isar2El1 t) s = .next s' →
    s'.readX t &&& 0xFFEEFEEEEEEE8EED#64 = 0#64 ∧ (s'.readX t).toNat ≤ 0x0011011111115112

/-- 41_feature_predicates.md R147: 2^12 * 6 = 24576 values pass the clauses W1 to W15. -/
def Obligations.CountOfValuesWithDefinedFields : Prop :=
  Nat.card { v : Word // Isar2.reservedBitsZero v = true ∧ Isar2.definedValues v = true } = 24576

/-- 41_feature_predicates.md R147: the all-zero value is legal exactly when no version that mandates a feature holds. -/
def Obligations.ZeroIsLegalExactlyBeforeMandatedFeatures : Prop :=
  ∀ (arch : Arch) (api apa gpi gpa : Nibble),
    Isar2.wfIsar2 0#64 arch api apa gpi gpa = true ↔
      ¬ (arch.ge_v8_6 = true ∧ api = 0#4 ∧ apa = 0#4) ∧ arch.ge_v8_7 = false ∧ arch.ge_v8_8 = false
      ∧ arch.ge_v8_9 = false ∧ arch.ge_v9_4 = false

/-- 10_state.md R48, R57; 41_feature_predicates.md R146; 70_reset_and_hazards.md R190: power-on refuses exactly the illegal configurations, and after it the register holds the configured value, its reserved ranges zero
(92_eei_decisions.md D2, D3, D19; log 23, log 31). -/
def Obligations.PowerOnRefusesExactlyIllegalConfigurations : Prop :=
  ∀ (p : Params) (levels : Levels),
    (p.legal = false → powerOn p levels = .refused .illegalConfiguration)
    ∧ (p.legal = true → ∃ s, powerOn p levels = .next s ∧ s.isar2 = p.isar2 ∧ s.impl.params = p
        ∧ Isar2.res0Hi s.isar2 = 0#8 ∧ Isar2.res0Mid s.isar2 = 0#4)

/-- What `State.reset` names besides the register: the model's choices of log 3 to log 7 and log 10 (PRESUMED for the level, DESIGN CHOICE for the rest), with the register readable at once (70_reset_and_hazards.md R191). -/
def Obligations.ResetStateAsTheLogNamesIt : Prop :=
  State.reset.el = .el3 ∧ State.reset.pc = 0#64 ∧ State.reset.mem = [] ∧ (∀ t, State.reset.readX t = 0#64)
  ∧ State.reset.el2Enabled = false ∧ State.reset.hcrEl2Tge = false ∧ State.reset.hcrEl2Tid3 = false
  ∧ State.reset.levels = ⟨true, true⟩
  ∧ ∀ t, ∃ s', exec (.mrsIdAa64isar2El1 t) State.reset = .next s'

/-- 41_feature_predicates.md R131 to R139, R142, R143, R145, on a legal value: a feature of a two-valued field is absent exactly when the field is zero (R48: all other values are reserved; log 23, log 25), WFXt's value is 2, SETG needs both
(log 27), FEAT_PACQARMA3 is either sentence's (log 28). -/
def Obligations.LegalFeatureAnswersAreYesOrZero : Prop :=
  ∀ p : Params, p.legal = true →
    (Isar2.haveCSSC p.isar2 = false ↔ Isar2.cssc p.isar2 = 0#4)
    ∧ (Isar2.haveRPRFM p.isar2 = false ↔ Isar2.rprfm p.isar2 = 0#4)
    ∧ (Isar2.havePRFMSLC p.isar2 = false ↔ Isar2.prfmslc p.isar2 = 0#4)
    ∧ (Isar2.haveSYSINSTR128 p.isar2 = false ↔ Isar2.sysinstr128 p.isar2 = 0#4)
    ∧ (Isar2.haveSYSREG128 p.isar2 = false ↔ Isar2.sysreg128 p.isar2 = 0#4)
    ∧ (Isar2.haveCLRBHB p.isar2 = false ↔ Isar2.clrbhb p.isar2 = 0#4)
    ∧ (Isar2.constPACField p.isar2 = false ↔ Isar2.pacFrac p.isar2 = 0#4)
    ∧ (Isar2.haveBC p.isar2 = false ↔ Isar2.bc p.isar2 = 0#4)
    ∧ (Isar2.haveMOPS p.isar2 = false ↔ Isar2.mops p.isar2 = 0#4)
    ∧ (Isar2.haveSETG p.isar2 p.haveMTE = true ↔ Isar2.mops p.isar2 = 1#4 ∧ p.haveMTE = true)
    ∧ (Isar2.genericAuthQARMA3 p.isar2 = false ↔ Isar2.gpa3 p.isar2 = 0#4)
    ∧ (Isar2.haveWFXT p.isar2 = false ↔ Isar2.wfxt p.isar2 = 0#4)
    ∧ (Isar2.havePACQARMA3 p.isar2 = false ↔ Isar2.addrAuthQARMA3 p.isar2 = false ∧ Isar2.genericAuthQARMA3 p.isar2 = false)

/-- 41_feature_predicates.md R140: the table of APA3, row by row; `none` is a cell the source does not state (log 26). -/
def Obligations.Apa3FunctionTable : Prop :=
  ∀ v : Word,
    let row := (Isar2.addrAuthQARMA3 v, Isar2.haveEnhancedPAC v, Isar2.haveEnhancedPAC2 v, Isar2.haveFPAC v, Isar2.haveFPACCombined v)
    (Isar2.apa3 v = 0b0000#4 → row = (false, none, none, none, none))
    ∧ (Isar2.apa3 v = 0b0001#4 → row = (true, some false, some false, none, none))
    ∧ (Isar2.apa3 v = 0b0010#4 → row = (true, some true, some false, none, none))
    ∧ (Isar2.apa3 v = 0b0011#4 → row = (true, some false, some true, some false, some false))
    ∧ (Isar2.apa3 v = 0b0100#4 → row = (true, some false, some true, some true, some false))
    ∧ (Isar2.apa3 v = 0b0101#4 → row = (true, some false, some true, some true, some true))

/-- 10_state.md R39, 41_feature_predicates.md R141: the feature each nonzero APA3 value names is implemented on a PE with that value, and FEAT_PACQARMA3 with any of them. The last clause is R39's sentence; the first five read
"FEAT_X implements the functionality identified by V" as value to feature, which is R141 and 92_eei_decisions.md D4 (exact values, no cumulative reading: log 25, DEDUCED). -/
def Obligations.Apa3ValueNamesItsFeature : Prop :=
  ∀ p : Params,
    (Isar2.apa3 p.isar2 = 0b0001#4 → p.featureImplemented .paauth = some true)
    ∧ (Isar2.apa3 p.isar2 = 0b0010#4 → p.featureImplemented .epac = some true)
    ∧ (Isar2.apa3 p.isar2 = 0b0011#4 → p.featureImplemented .paauth2 = some true)
    ∧ (Isar2.apa3 p.isar2 = 0b0100#4 → p.featureImplemented .fpac = some true)
    ∧ (Isar2.apa3 p.isar2 = 0b0101#4 → p.featureImplemented .fpaccombine = some true)
    ∧ (Isar2.apa3 p.isar2 ≠ 0b0000#4 → p.featureImplemented .pacqarma3 = some true)

/-- 41_feature_predicates.md R143, 92_eei_decisions.md D26: legality does not make a nonzero APA3 force GPA3 (log 28). -/
def Obligations.NonzeroApa3DoesNotForceGpa3 : Prop :=
  ∃ p : Params, p.legal = true ∧ Isar2.apa3 p.isar2 ≠ 0#4 ∧ Isar2.gpa3 p.isar2 = 0#4 ∧ Isar2.havePACQARMA3 p.isar2 = true

/-- 10_state.md R45, 41_feature_predicates.md R144: 8 or 12 bits of mantissa when FPCR.AH is 1; no number when it is 0 (log 26). -/
def Obligations.ReciprocalEstimateMantissaBits : Prop :=
  ∀ v : Word,
    (Isar2.rpres v = 0b0000#4 → Isar2.recipEstimateMantissaBits v true = some 8)
    ∧ (Isar2.rpres v = 0b0001#4 → Isar2.recipEstimateMantissaBits v true = some 12)
    ∧ Isar2.recipEstimateMantissaBits v false = none

/-- 10_state.md R25, 41_feature_predicates.md R132: RPRFM, where it is not implemented, only advances the program counter (log 15, log 36); where it is implemented the model stops by name. -/
def Obligations.UnimplementedRprfmIsANop : Prop :=
  ∀ s : State,
    (Isar2.rprfm s.isar2 = 0b0000#4 → s.pc.toNat + 4 < 2 ^ 64 → rprfmHint s = .next { s with pc := s.pc + 4#64 })
    ∧ (Isar2.rprfm s.isar2 = 0b0001#4 → rprfmHint s = .refused .rprfmImplemented)

/-- 60_exceptions.md R162 (general knowledge; log 19): the syndrome offered to an enclosing model, built from its fields, is 0x6234000D + 32*t. -/
def Obligations.GeneralSyndromeValue : Prop :=
  ∀ t : RegNum, (generalSyndrome t).toNat = 0x6234000D + 32 * t.val

/-- 60_exceptions.md R162, 92_eei_decisions.md D24: what the accessor records beyond the class 0x18 is, for every value of the OPEN parameter, that parameter at the trap's target, the destination and the program counter of the
trapped instruction; and it records something exactly where it traps, nothing for Undefined, a read or a refusal (the parameter's shape and arguments are the model's: log 19, DESIGN CHOICE). -/
def Obligations.TrapRecordIsTheOpenParameter : Prop :=
  ∀ (t : RegNum) (s : State) (r : TrapRecord),
    mrsTrapRecord t s = some r ↔
      ∃ target, exec (.mrsIdAa64isar2El1 t) s = .fault (.systemAccessTrap target 0x18) ∧ r = Config.trapSyndrome target t s.pc
end

