-- ==== Sys2Proof/Laws/Bits.lean ====
section
/-! SUPPORT. Concatenation of bit strings as numbers, which turns questions about fields into linear arithmetic. -/

namespace Sys2Proof

/-- `a : b` as a number: the more significant part scaled by the width of the other. -/
theorem toNat_concat {m n : Nat} (x : BitVec m) (y : BitVec n) : (x ++ y).toNat = x.toNat * 2 ^ n + y.toNat := by
  rw [BitVec.toNat_append, Nat.shiftLeft_eq, Nat.mul_comm, Nat.two_pow_add_eq_or_of_lt y.isLt]

/-- A field of a value as a number (41_feature_predicates.md R130). -/
theorem toNat_field {n : Nat} (v : BitVec n) (lo len : Nat) : (v.extractLsb' lo len).toNat = v.toNat / 2 ^ lo % 2 ^ len := by
  rw [BitVec.extractLsb'_toNat, Nat.shiftRight_eq_div_pow]

end Sys2Proof
end

