-- ==== Sys2Proof/Laws/Isar2.lean ====
section
/-! SUPPORT. The small Boolean checks of the legality predicate, as the propositions they stand for. -/

namespace Sys2Proof.Isar2

/-- A two-valued field holds 0 or 1. -/
theorem twoValued_iff (f : Nibble) : twoValued f = true ↔ f = 0b0000#4 ∨ f = 0b0001#4 := by
  simp [twoValued]

theorem implies_iff (a b : Bool) : implies a b = true ↔ (a = true → b = true) := by
  cases a <;> simp [implies]

/-- A number of at most five is one of the six defined values of APA3. -/
theorem apa3Defined_iff (f : Nibble) :
    f.toNat ≤ 5 ↔ f = 0b0000#4 ∨ f = 0b0001#4 ∨ f = 0b0010#4 ∨ f = 0b0011#4 ∨ f = 0b0100#4 ∨ f = 0b0101#4 := by
  revert f; decide

/-- `IsZero(v)` (00_scope.md R5). -/
theorem isZero_iff (v : Word) : isZero v = true ↔ v = 0#64 := by
  simp [isZero]

end Sys2Proof.Isar2
end

