-- ==== Sys2Proof/Laws/Memory.lean ====
section
/-! SUPPORT. Read after write, and every memory operation keeps the canonical form. -/

namespace Sys2Proof

@[simp] theorem Memory.read_nil (a : Nat) : Memory.read [] a = none := rfl

/-- The byte written is the byte read. -/
theorem Memory.read_write_same (m : Memory) (a : Nat) (v : Byte) : (m.write a v).read a = some v := by
  induction m with
  | nil => simp [Memory.write, Memory.read]
  | cons c m ih =>
    obtain ⟨k, b⟩ := c
    unfold Memory.write
    split_ifs with h1 h2
    · simp [Memory.read]
    · simp [Memory.read]
    · have : k ≠ a := fun e => h2 e.symm
      simp [Memory.read, this, ih]

/-- A write leaves every other address alone. -/
theorem Memory.read_write_ne (m : Memory) (a b : Nat) (v : Byte) (h : b ≠ a) : (m.write a v).read b = m.read b := by
  induction m with
  | nil => simp [Memory.write, Memory.read, Ne.symm h]
  | cons c m ih =>
    obtain ⟨k, w⟩ := c
    unfold Memory.write
    split_ifs with h1 h2
    · simp [Memory.read, Ne.symm h]
    · subst h2; simp [Memory.read, Ne.symm h]
    · simp only [Memory.read, ih]

/-- The reads of an address below a run of bytes are as before. -/
theorem Memory.read_writeBytes_below (m : Memory) (a b : Nat) (vs : List Byte) (h : b < a) :
    (m.writeBytes a vs).read b = m.read b := by
  induction vs generalizing m a with
  | nil => rfl
  | cons v vs ih =>
    rw [Memory.writeBytes, ih _ _ (by omega), Memory.read_write_ne _ _ _ _ (by omega)]

/-- The reads of an address above a run of bytes are as before. -/
theorem Memory.read_writeBytes_above (m : Memory) (a b : Nat) (vs : List Byte) (h : a + vs.length ≤ b) :
    (m.writeBytes a vs).read b = m.read b := by
  induction vs generalizing m a with
  | nil => rfl
  | cons v vs ih =>
    simp only [List.length_cons] at h
    rw [Memory.writeBytes, ih _ _ (by omega), Memory.read_write_ne _ _ _ _ (by omega)]

/-- Each byte of a run is read where it was placed. -/
theorem Memory.read_writeBytes_at (m : Memory) (a k : Nat) (vs : List Byte) (h : k < vs.length) :
    (m.writeBytes a vs).read (a + k) = some vs[k] := by
  induction vs generalizing m a k with
  | nil => simp at h
  | cons v vs ih =>
    cases k with
    | zero =>
      change ((m.write a v).writeBytes (a + 1) vs).read a = some v
      rw [Memory.read_writeBytes_below _ _ _ _ (by omega), Memory.read_write_same]
    | succ k =>
      have hk : k < vs.length := by simpa using h
      have e : a + (k + 1) = a + 1 + k := by omega
      rw [Memory.writeBytes, e, ih _ _ _ hk]
      rfl

/-! ## The canonical form -/

theorem Memory.risesAbove_weaken {l l' : Nat} {m : Memory} (h : Memory.risesAbove (some l) m = true) (hl : l' ≤ l) :
    Memory.risesAbove (some l') m = true := by
  cases m with
  | nil => rfl
  | cons c m =>
    obtain ⟨k, b⟩ := c
    simp only [Memory.risesAbove, Bool.and_eq_true, decide_eq_true_eq] at h ⊢
    exact ⟨⟨by omega, h.1.2⟩, h.2⟩

theorem Memory.write_risesAbove {m : Memory} {l a : Nat} (v : Byte) (h : Memory.risesAbove (some l) m = true)
    (hl : l < a) (ha : a < 2 ^ 64) : Memory.risesAbove (some l) (m.write a v) = true := by
  induction m generalizing l with
  | nil => simp [Memory.write, Memory.risesAbove]; omega
  | cons c m ih =>
    obtain ⟨k, b⟩ := c
    have h' := h
    simp only [Memory.risesAbove, Bool.and_eq_true, decide_eq_true_eq] at h'
    obtain ⟨⟨hk, hk64⟩, hm⟩ := h'
    unfold Memory.write
    split_ifs with h1 h2
    · simp only [Memory.risesAbove, Bool.and_eq_true, decide_eq_true_eq]
      exact ⟨⟨hl, ha⟩, ⟨h1, hk64⟩, hm⟩
    · subst h2
      simp only [Memory.risesAbove, Bool.and_eq_true, decide_eq_true_eq]
      exact ⟨⟨hl, ha⟩, hm⟩
    · simp only [Memory.risesAbove, Bool.and_eq_true, decide_eq_true_eq]
      exact ⟨⟨hk, hk64⟩, ih hm (by omega)⟩

/-- A write at a 64-bit address keeps the canonical form. -/
theorem Memory.write_wf {m : Memory} {a : Nat} (v : Byte) (h : m.wf = true) (ha : a < 2 ^ 64) : (m.write a v).wf = true := by
  cases m with
  | nil => simp [Memory.write, Memory.wf, Memory.risesAbove]; omega
  | cons c m =>
    obtain ⟨k, b⟩ := c
    simp only [Memory.wf, Memory.risesAbove, Bool.true_and, Bool.and_eq_true, decide_eq_true_eq] at h
    unfold Memory.write
    split_ifs with h1 h2
    · simp only [Memory.wf, Memory.risesAbove, Bool.true_and, Bool.and_eq_true, decide_eq_true_eq]
      exact ⟨ha, ⟨h1, h.1⟩, h.2⟩
    · subst h2
      simp only [Memory.wf, Memory.risesAbove, Bool.true_and, Bool.and_eq_true, decide_eq_true_eq]
      exact ⟨ha, h.2⟩
    · simp only [Memory.wf, Memory.risesAbove, Bool.true_and, Bool.and_eq_true, decide_eq_true_eq]
      exact ⟨h.1, Memory.write_risesAbove v h.2 (by omega) ha⟩

/-- A run of bytes that stays below 2^64 keeps the canonical form. -/
theorem Memory.writeBytes_wf {m : Memory} {a : Nat} {vs : List Byte} (h : m.wf = true) (ha : a + vs.length ≤ 2 ^ 64) :
    (m.writeBytes a vs).wf = true := by
  induction vs generalizing m a with
  | nil => exact h
  | cons v vs ih =>
    simp only [List.length_cons] at ha
    exact ih (Memory.write_wf v h (by omega)) (by omega)

namespace Machine

/-- Placing a word where the next instruction is fetched keeps the canonical form, at an aligned program counter. -/
theorem State.withFetchWord_wf (s : State) (nbits w : Nat) (h : s.mem.wf = true) (ha : s.pcAligned = true) :
    (s.withFetchWord nbits w).mem.wf = true := by
  refine Memory.writeBytes_wf h ?_
  have h4 : s.pc.toNat % 4 = 0 := by simpa [State.pcAligned] using ha
  have := s.pc.isLt
  simp only [bytesOfWord, List.length_cons, List.length_nil]
  omega

end Machine

end Sys2Proof
end

