-- ==== Sys2Proof/Laws/State.lean ====
section
/-! SUPPORT. One lemma per field per update of State, and what reading a register gives after each update. -/

namespace Sys2Proof.Machine

/-! ## `pc <- target` -/

@[simp] theorem State.setPc_pc (s : State) (p : Word) : (s.setPc p).pc = p := rfl
@[simp] theorem State.setPc_x (s : State) (p : Word) : (s.setPc p).x = s.x := rfl
@[simp] theorem State.setPc_el (s : State) (p : Word) : (s.setPc p).el = s.el := rfl
@[simp] theorem State.setPc_el2Enabled (s : State) (p : Word) : (s.setPc p).el2Enabled = s.el2Enabled := rfl
@[simp] theorem State.setPc_hcrEl2Tge (s : State) (p : Word) : (s.setPc p).hcrEl2Tge = s.hcrEl2Tge := rfl
@[simp] theorem State.setPc_hcrEl2Tid3 (s : State) (p : Word) : (s.setPc p).hcrEl2Tid3 = s.hcrEl2Tid3 := rfl
@[simp] theorem State.setPc_mem (s : State) (p : Word) : (s.setPc p).mem = s.mem := rfl
@[simp] theorem State.setPc_impl (s : State) (p : Word) : (s.setPc p).impl = s.impl := rfl
@[simp] theorem State.setPc_levels (s : State) (p : Word) : (s.setPc p).levels = s.levels := rfl
@[simp] theorem State.setPc_readX (s : State) (p : Word) (j : RegNum) : (s.setPc p).readX j = s.readX j := rfl
@[simp] theorem State.setPc_isar2 (s : State) (p : Word) : (s.setPc p).isar2 = s.isar2 := rfl
@[simp] theorem State.setPc_setPc (s : State) (p q : Word) : (s.setPc p).setPc q = s.setPc q := rfl

/-! ## `x[t] <- v` -/

@[simp] theorem State.writeX_pc (s : State) (t : RegNum) (v : Word) : (s.writeX t v).pc = s.pc := by
  unfold State.writeX; split <;> rfl
@[simp] theorem State.writeX_el (s : State) (t : RegNum) (v : Word) : (s.writeX t v).el = s.el := by
  unfold State.writeX; split <;> rfl
@[simp] theorem State.writeX_el2Enabled (s : State) (t : RegNum) (v : Word) :
    (s.writeX t v).el2Enabled = s.el2Enabled := by
  unfold State.writeX; split <;> rfl
@[simp] theorem State.writeX_hcrEl2Tge (s : State) (t : RegNum) (v : Word) : (s.writeX t v).hcrEl2Tge = s.hcrEl2Tge := by
  unfold State.writeX; split <;> rfl
@[simp] theorem State.writeX_hcrEl2Tid3 (s : State) (t : RegNum) (v : Word) :
    (s.writeX t v).hcrEl2Tid3 = s.hcrEl2Tid3 := by
  unfold State.writeX; split <;> rfl
@[simp] theorem State.writeX_mem (s : State) (t : RegNum) (v : Word) : (s.writeX t v).mem = s.mem := by
  unfold State.writeX; split <;> rfl
@[simp] theorem State.writeX_impl (s : State) (t : RegNum) (v : Word) : (s.writeX t v).impl = s.impl := by
  unfold State.writeX; split <;> rfl
@[simp] theorem State.writeX_levels (s : State) (t : RegNum) (v : Word) : (s.writeX t v).levels = s.levels := by
  unfold State.writeX; split <;> rfl
@[simp] theorem State.writeX_isar2 (s : State) (t : RegNum) (v : Word) : (s.writeX t v).isar2 = s.isar2 := by
  simp [State.isar2]

/-- XZR reads as zero. -/
@[simp] theorem State.readX_zr (s : State) : s.readX 31 = 0#64 := rfl

/-- A write to XZR is discarded. -/
@[simp] theorem State.writeX_zr (s : State) (v : Word) : s.writeX 31 v = s := rfl

/-- A register reads as the value last written, but for XZR. -/
theorem State.readX_writeX_same (s : State) (t : RegNum) (v : Word) (h : t ≠ 31) : (s.writeX t v).readX t = v := by
  have ht : t.val < 31 := by
    have := t.isLt
    have : t.val ≠ 31 := fun e => h (Fin.ext e)
    omega
  simp [State.readX, State.writeX, ht]

/-- A write leaves every other register alone. -/
theorem State.readX_writeX_ne (s : State) (t j : RegNum) (v : Word) (h : j ≠ t) : (s.writeX t v).readX j = s.readX j := by
  have hv : t.val ≠ j.val := fun e => h (Fin.ext e.symm)
  unfold State.readX State.writeX
  split
  · split
    · simp [Vector.getElem_set_ne, hv]
    · rfl
  · rfl

/-! ## Placing program text -/

@[simp] theorem State.place_x (s : State) (a : Nat) (bs : List Byte) : (s.place a bs).x = s.x := rfl
@[simp] theorem State.place_pc (s : State) (a : Nat) (bs : List Byte) : (s.place a bs).pc = s.pc := rfl
@[simp] theorem State.place_el (s : State) (a : Nat) (bs : List Byte) : (s.place a bs).el = s.el := rfl
@[simp] theorem State.place_el2Enabled (s : State) (a : Nat) (bs : List Byte) :
    (s.place a bs).el2Enabled = s.el2Enabled := rfl
@[simp] theorem State.place_hcrEl2Tge (s : State) (a : Nat) (bs : List Byte) : (s.place a bs).hcrEl2Tge = s.hcrEl2Tge := rfl
@[simp] theorem State.place_hcrEl2Tid3 (s : State) (a : Nat) (bs : List Byte) :
    (s.place a bs).hcrEl2Tid3 = s.hcrEl2Tid3 := rfl
@[simp] theorem State.place_mem (s : State) (a : Nat) (bs : List Byte) :
    (s.place a bs).mem = s.mem.writeBytes a bs := rfl
@[simp] theorem State.place_impl (s : State) (a : Nat) (bs : List Byte) : (s.place a bs).impl = s.impl := rfl
@[simp] theorem State.place_levels (s : State) (a : Nat) (bs : List Byte) : (s.place a bs).levels = s.levels := rfl
@[simp] theorem State.place_pcAligned (s : State) (a : Nat) (bs : List Byte) :
    (s.place a bs).pcAligned = s.pcAligned := rfl

end Sys2Proof.Machine
end

