-- ==== Sys2Proof/Laws/Ops.lean ====
section
/-! SUPPORT. What each shared operation can answer, said once: provers cite these instead of unfolding. -/

namespace Sys2Proof.Machine

@[simp] theorem raise_eq (f : Fault) : raise f = .fault f := rfl

@[simp] theorem raiseSystemAccessTrap_eq (l : ExceptionLevel) : raiseSystemAccessTrap l = .fault (.systemAccessTrap l 0x18) := rfl

/-- Completing advances the program counter where that stays below 2^64. -/
theorem State.complete_next {s : State} (h : s.pcCanAdvance = true) : s.complete = .next (s.setPc (s.pc + 4#64)) := by
  simp [State.complete, State.pcCanAdvance] at h ⊢
  omega

/-- Completing is refused at the top of the address space. -/
theorem State.complete_refused {s : State} (h : s.pcCanAdvance = false) : s.complete = .refused .pcWrap := by
  simp [State.complete, State.pcCanAdvance] at h ⊢
  omega

@[simp] theorem State.writeX_pcCanAdvance (s : State) (t : RegNum) (v : Word) :
    (s.writeX t v).pcCanAdvance = s.pcCanAdvance := by
  simp [State.pcCanAdvance]

/-- The read, where the program counter can advance. -/
theorem State.readIsar2_next {s : State} (t : RegNum) (h : s.pcCanAdvance = true) :
    s.readIsar2 t = .next ((s.writeX t s.isar2).setPc (s.pc + 4#64)) := by
  have h' : (s.writeX t s.isar2).pcCanAdvance = true := by simpa using h
  simp [State.readIsar2, State.complete_next h']

/-- The read at the top of the address space. -/
theorem State.readIsar2_refused {s : State} (t : RegNum) (h : s.pcCanAdvance = false) : s.readIsar2 t = .refused .pcWrap := by
  have h' : (s.writeX t s.isar2).pcCanAdvance = false := by simpa using h
  simp [State.readIsar2, State.complete_refused h']

/-- The EL1 condition as the three terms of 40_mrs_access.md R112. -/
theorem State.tid3Traps_iff (s : State) :
    s.tid3Traps = true ↔
      s.el2Enabled = true
      ∧ (s.impl.params.haveFGT = true ∨ s.isar2 ≠ 0#64 ∨ s.impl.params.impDefTid3TrapsZeroReg = true)
      ∧ s.hcrEl2Tid3 = true := by
  simp [State.tid3Traps, Isar2.isZero, and_assoc, or_assoc]

/-- All the accessor can do: read, be refused at the top of the address space, or raise. -/
theorem execMrsIdAa64isar2El1_cases (t : RegNum) (s : State) :
    (s.mayRead ∧ s.pcCanAdvance = true
      ∧ execMrsIdAa64isar2El1 t s = .next ((s.writeX t s.isar2).setPc (s.pc + 4#64)))
    ∨ (s.mayRead ∧ s.pcCanAdvance = false ∧ execMrsIdAa64isar2El1 t s = .refused .pcWrap)
    ∨ (¬ s.mayRead ∧ ((s.el = .el0 ∧ s.impl.params.haveIDST = false ∧ execMrsIdAa64isar2El1 t s = .fault .undefined)
      ∨ (s.el = .el0 ∧ s.impl.params.haveIDST = true ∧ s.tgeRoutes = false
          ∧ execMrsIdAa64isar2El1 t s = .fault (.systemAccessTrap .el1 0x18))
      ∨ (s.el = .el0 ∧ s.impl.params.haveIDST = true ∧ s.tgeRoutes = true
          ∧ execMrsIdAa64isar2El1 t s = .fault (.systemAccessTrap .el2 0x18))
      ∨ (s.el = .el1 ∧ s.tid3Traps = true ∧ execMrsIdAa64isar2El1 t s = .fault (.systemAccessTrap .el2 0x18)))) := by
  have read (hm : s.mayRead) (he : execMrsIdAa64isar2El1 t s = s.readIsar2 t) :
      (s.mayRead ∧ s.pcCanAdvance = true
        ∧ execMrsIdAa64isar2El1 t s = .next ((s.writeX t s.isar2).setPc (s.pc + 4#64)))
      ∨ (s.mayRead ∧ s.pcCanAdvance = false ∧ execMrsIdAa64isar2El1 t s = .refused .pcWrap) := by
    cases hp : s.pcCanAdvance with
    | true => exact .inl ⟨hm, rfl, by rw [he, State.readIsar2_next t hp]⟩
    | false => exact .inr ⟨hm, rfl, by rw [he, State.readIsar2_refused t hp]⟩
  have notRead0 (hel : s.el = .el0) : ¬ s.mayRead := by simp [State.mayRead, hel]
  cases hel : s.el with
  | el0 =>
    refine .inr (.inr ⟨notRead0 hel, ?_⟩)
    cases hi : s.impl.params.haveIDST <;> cases hr : s.tgeRoutes <;> simp [execMrsIdAa64isar2El1, hel, hi, hr]
  | el1 =>
    cases ht : s.tid3Traps with
    | true =>
      refine .inr (.inr ⟨?_, .inr (.inr (.inr ⟨rfl, rfl, by simp [execMrsIdAa64isar2El1, hel, ht]⟩))⟩)
      rw [State.mayRead, hel, ← State.tid3Traps_iff, ht]
      simp
    | false =>
      have hm : s.mayRead := by rw [State.mayRead, hel, ← State.tid3Traps_iff, ht]; simp
      rcases read hm (by simp [execMrsIdAa64isar2El1, hel, ht]) with h | h
      · exact .inl h
      · exact .inr (.inl h)
  | el2 =>
    rcases read (.inl hel) (by simp [execMrsIdAa64isar2El1, hel]) with h | h
    · exact .inl h
    · exact .inr (.inl h)
  | el3 =>
    rcases read (.inr (.inl hel)) (by simp [execMrsIdAa64isar2El1, hel]) with h | h
    · exact .inl h
    · exact .inr (.inl h)

/-- What a next state of the accessor is. -/
theorem execMrsIdAa64isar2El1_next {t : RegNum} {s s' : State} (h : execMrsIdAa64isar2El1 t s = .next s') :
    s.mayRead ∧ s.pcCanAdvance = true ∧ s' = (s.writeX t s.isar2).setPc (s.pc + 4#64) := by
  rcases execMrsIdAa64isar2El1_cases t s with ⟨hm, hp, he⟩ | ⟨_, _, he⟩ | ⟨_, ⟨_, _, he⟩ | ⟨_, _, _, he⟩ | ⟨_, _, _, he⟩ | ⟨_, _, he⟩⟩ <;>
    rw [he] at h <;> cases h
  exact ⟨hm, hp, rfl⟩

/-! ## What a stop records -/

@[simp] theorem Fault.trapRecord_systemAccessTrap (t : RegNum) (pc : Word) (target : ExceptionLevel) (c : Nat) :
    (Fault.systemAccessTrap target c).trapRecord t pc = some (Config.trapSyndrome target t pc) := rfl
@[simp] theorem Fault.trapRecord_undefined (t : RegNum) (pc : Word) : Fault.undefined.trapRecord t pc = none := rfl

/-- The record of a trapping accessor, at the state's program counter. -/
theorem mrsTrapRecord_of_fault {t : RegNum} {s : State} {f : Fault} (h : execMrsIdAa64isar2El1 t s = .fault f) :
    mrsTrapRecord t s = f.trapRecord t s.pc := by
  simp [mrsTrapRecord, h]

/-- The fetch of four placed bytes. -/
theorem State.fetch_some {s : State} {b0 b1 b2 b3 : Byte} (h0 : s.mem.read s.pc.toNat = some b0)
    (h1 : s.mem.read (s.pc.toNat + 1) = some b1) (h2 : s.mem.read (s.pc.toNat + 2) = some b2)
    (h3 : s.mem.read (s.pc.toNat + 3) = some b3) : s.fetch = some [b0, b1, b2, b3] := by
  simp [State.fetch, h0, h1, h2, h3]

/-- The advance of a program counter that can advance, as a number. -/
theorem State.toNat_pc_add_four {s : State} (h : s.pcCanAdvance = true) : (s.pc + 4#64).toNat = s.pc.toNat + 4 := by
  have h' : s.pc.toNat + 4 < 2 ^ 64 := by simpa [State.pcCanAdvance] using h
  rw [BitVec.toNat_add, BitVec.toNat_ofNat]
  omega

/-- All a step can do: stop at the alignment, at the fetch or at the decoder, or run the decoded instruction. -/
theorem step_cases (s : State) :
    (s.pcAligned = false ∧ step s = .fault .pcAlignment)
    ∨ (s.pcAligned = true ∧ s.fetch = none ∧ step s = .fault .noInstruction)
    ∨ (s.pcAligned = true ∧ ∃ bytes e, s.fetch = some bytes ∧ decode bytes = .error e
        ∧ step s = .refused (.notAnInstruction e))
    ∨ (s.pcAligned = true ∧ ∃ bytes i rest, s.fetch = some bytes ∧ decode bytes = .ok (i, rest) ∧ step s = exec i s) := by
  unfold step
  cases ha : s.pcAligned with
  | false => simp
  | true =>
    cases hf : s.fetch with
    | none => simp
    | some bytes =>
      cases hd : decode bytes with
      | error e => exact .inr (.inr (.inl ⟨rfl, bytes, e, rfl, hd, by simp [hd]⟩))
      | ok r => exact .inr (.inr (.inr ⟨rfl, bytes, r.1, r.2, rfl, hd, by simp [hd]⟩))

/-- A completed step is a completed read. -/
theorem step_next {s s' : State} (h : step s = .next s') :
    s.pcAligned = true ∧ s.mayRead ∧ s.pcCanAdvance = true ∧ ∃ t, s' = (s.writeX t s.isar2).setPc (s.pc + 4#64) := by
  rcases step_cases s with ⟨_, he⟩ | ⟨_, _, he⟩ | ⟨_, _, _, _, _, he⟩ | ⟨ha, _, i, _, _, _, he⟩
  · rw [he] at h; cases h
  · rw [he] at h; cases h
  · rw [he] at h; cases h
  · rw [he] at h
    cases i with
    | mrsIdAa64isar2El1 t =>
      obtain ⟨hm, hp, hs⟩ := execMrsIdAa64isar2El1_next h
      exact ⟨ha, hm, hp, t, hs⟩

end Sys2Proof.Machine
end

