-- ==== Sys2Proof/Laws/PerInstr.lean ====
section
/-! SUPPORT. One statement about each instruction as syntax: its word fills its row of spec/opcode_table.json. -/

namespace Sys2Proof.Laws.FillsItsTableRow

/-- The fixed bits of the word are the row's `match` under its `mask`, and the other five are the operand (30_encoding.md R91, R93). -/
def Statement : Instr → Prop
  | .mrsIdAa64isar2El1 t =>
    encodeWord (.mrsIdAa64isar2El1 t) &&& 0xFFFFFFE0#32 = 0xD5380640#32
    ∧ (encodeWord (.mrsIdAa64isar2El1 t)).toNat % 32 = t.val

theorem mrsIdAa64isar2El1 (t : RegNum) : Statement (.mrsIdAa64isar2El1 t) := by
  have h : ∀ t : RegNum, encodeWord (.mrsIdAa64isar2El1 t) &&& 0xFFFFFFE0#32 = 0xD5380640#32
      ∧ (encodeWord (.mrsIdAa64isar2El1 t)).toNat % 32 = t.val := by decide
  exact h t

end Sys2Proof.Laws.FillsItsTableRow
end

