-- ==== Sys2Proof/Tests/Slice0.lean ====
section
/-! SUPPORT. Tests, each expected result taken from spec/ (95_test_vectors.md where no other file is named), and a witness for the hypotheses of each statement. -/

namespace Sys2Proof.Tests

open Sys2Proof.Machine

/-! ## Decoding: words written out from 30_encoding.md R91 (section 5 of the vectors) -/

theorem test_decode_mrs_x0 : decodeWord 0b11010101001110000000011001000000#32 = .ok (.mrsIdAa64isar2El1 0) := by decide
theorem test_decode_mrs_x1 : decodeTableWord 32 0xD5380641 = some (.mrsIdAa64isar2El1 1) := by decide
theorem test_decode_mrs_x30 : decodeTableWord 32 0xD538065E = some (.mrsIdAa64isar2El1 30) := by decide
theorem test_decode_mrs_xzr : decodeWord 0b11010101001110000000011001011111#32 = .ok (.mrsIdAa64isar2El1 31) := by decide

/-- The bytes of `MRS X5` as they stand in memory, lowest address first (20_memory.md R74). -/
theorem test_decode_little_endian : decode [0x45#8, 0x06#8, 0x38#8, 0xD5#8, 0xFF#8] = .ok (.mrsIdAa64isar2El1 5, [0xFF#8]) := by decide

theorem test_encode_mrs_x5 : encode (.mrsIdAa64isar2El1 5) = [0x45#8, 0x06#8, 0x38#8, 0xD5#8] := by decide

/-- op2 = 3, 1, 0; CRm = 7; op1 = 1; o0 = 0: other locations, by name. -/
theorem test_decode_other_locations :
    decodeWord 0xD5380660#32 = .error (.otherRegisterRead ⟨3, 0, 0, 6, 3⟩)
    ∧ decodeWord 0xD5380620#32 = .error (.otherRegisterRead ⟨3, 0, 0, 6, 1⟩)
    ∧ decodeWord 0xD5380600#32 = .error (.otherRegisterRead ⟨3, 0, 0, 6, 0⟩)
    ∧ decodeWord 0xD5380740#32 = .error (.otherRegisterRead ⟨3, 0, 0, 7, 2⟩)
    ∧ decodeWord 0xD5390640#32 = .error (.otherRegisterRead ⟨3, 1, 0, 6, 2⟩)
    ∧ decodeWord 0xD5300640#32 = .error (.otherRegisterRead ⟨2, 0, 0, 6, 2⟩) := by decide

/-- L = 0: the write form, by name. -/
theorem test_decode_write_form : decodeWord 0xD5180640#32 = .error .writeAccessor ∧ decodeWord 0xD518065F#32 = .error .writeAccessor := by decide

theorem test_decode_truncated : decode [0x45#8, 0x06#8, 0x38#8] = .error .truncated := by decide

/-- The bits above `nbits` are zero. -/
theorem test_decode_table_word_masks : decodeTableWord 32 0x1D5380640 = some (.mrsIdAa64isar2El1 0) := by decide

/-- 30_encoding.md R94. -/
theorem test_asm : Instr.asm (.mrsIdAa64isar2El1 0) = "MRS X0, ID_AA64ISAR2_EL1"
    ∧ Instr.asm (.mrsIdAa64isar2El1 31) = "MRS XZR, ID_AA64ISAR2_EL1" ∧ SysRegLoc.isar2.genericName = "S3_0_C0_C6_2" := by decide

/-! ## The values and versions of the vectors -/

def v1 : Word := 0x0011011111115112#64
def v2 : Word := 0x0000000010110012#64
def v5 : Word := 0x0000000000113102#64
def v9 : Word := 0x0010000011114112#64

def archNone : Arch := ⟨false, false, false, false, false, false⟩
def archTo83 : Arch := ⟨true, false, false, false, false, false⟩
def archTo86 : Arch := ⟨true, true, false, false, false, false⟩
def archTo87 : Arch := ⟨true, true, true, false, false, false⟩
def archTo88 : Arch := ⟨true, true, true, true, false, false⟩
def archTo89 : Arch := ⟨true, true, true, true, true, false⟩
def archAll : Arch := ⟨true, true, true, true, true, true⟩

/-- V1: every field at its highest defined value. -/
theorem test_fields_v1 : Isar2.fields v1 = ⟨1, 1, 1, 1, 1, 1, 1, 1, 1, 5, 1, 1, 2⟩ := by decide
theorem test_compose_v9 : Isar2.compose ⟨1, 0, 0, 0, 0, 1, 1, 1, 1, 4, 1, 1, 2⟩ = v9 := by decide

/-- V4 and V7: the reserved ranges. -/
theorem test_reserved_ranges : Isar2.res0Hi 0x8000000000000000#64 = 0x80#8 ∧ Isar2.res0Mid 0x0000100000000000#64 = 0b0001#4 := by decide

/-- Single-field placements. -/
theorem test_single_fields :
    Isar2.cssc 0x0010000000000000#64 = 1 ∧ Isar2.rprfm 0x0001000000000000#64 = 1 ∧ Isar2.prfmslc 0x0000010000000000#64 = 1
    ∧ Isar2.sysinstr128 0x0000001000000000#64 = 1 ∧ Isar2.sysreg128 0x0000000100000000#64 = 1 ∧ Isar2.clrbhb 0x0000000010000000#64 = 1
    ∧ Isar2.pacFrac 0x0000000001000000#64 = 1 ∧ Isar2.bc 0x0000000000100000#64 = 1 ∧ Isar2.mops 0x0000000000010000#64 = 1
    ∧ Isar2.apa3 0x0000000000001000#64 = 1 ∧ Isar2.gpa3 0x0000000000000100#64 = 1 ∧ Isar2.rpres 0x0000000000000010#64 = 1
    ∧ Isar2.wfxt 0x0000000000000002#64 = 2 := by decide

/-! ## Well-formedness: what passes, and one ill-formed term for each check -/

/-- W-1, W-2, W-4, W-6, W-9, W-10, W-15, W-17, W-21, W-22, W-23. -/
theorem test_legal_values :
    Isar2.wfIsar2 0#64 archNone 0 0 0 0 ∧ Isar2.wfIsar2 0#64 archTo83 0 0 0 0 ∧ Isar2.wfIsar2 0#64 archTo86 0 1 0 0
    ∧ Isar2.wfIsar2 v1 archAll 0 0 0 0 ∧ Isar2.wfIsar2 v2 archTo88 0 5 0 1 ∧ Isar2.wfIsar2 v2 archTo89 0 5 0 1
    ∧ Isar2.wfIsar2 v5 archTo88 0 0 0 0 ∧ Isar2.wfIsar2 0x2000#64 archTo83 0 0 0 0 ∧ Isar2.wfIsar2 v9 archAll 0 0 0 0
    ∧ Isar2.wfIsar2 0x10000#64 archTo83 0 0 0 0 ∧ Isar2.wfIsar2 0x12#64 archTo87 0 3 0 0 := by decide

/-- W1 and W2 (W-14, W-19). -/
theorem smoke_reserved_bits :
    Isar2.wfIsar2 0x8000000000000000#64 archTo83 0 0 0 0 = false ∧ Isar2.wfIsar2 0x0000100000000000#64 archTo83 0 0 0 0 = false := by decide

/-- W3 to W15: the value 2 in each two-valued field, 6 in APA3 (W-20), 1 in WFXt (W-13). -/
theorem smoke_defined_values :
    Isar2.wfIsar2 0x0020000000000000#64 archTo83 0 0 0 0 = false ∧ Isar2.wfIsar2 0x0002000000000000#64 archTo83 0 0 0 0 = false
    ∧ Isar2.wfIsar2 0x0000020000000000#64 archTo83 0 0 0 0 = false ∧ Isar2.wfIsar2 0x0000002000000000#64 archTo83 0 0 0 0 = false
    ∧ Isar2.wfIsar2 0x0000000200000000#64 archTo83 0 0 0 0 = false ∧ Isar2.wfIsar2 0x0000000020000000#64 archTo83 0 0 0 0 = false
    ∧ Isar2.wfIsar2 0x0000000002000000#64 archTo83 0 0 0 0 = false ∧ Isar2.wfIsar2 0x0000000000200000#64 archTo83 0 0 0 0 = false
    ∧ Isar2.wfIsar2 0x0000000000020000#64 archTo83 0 0 0 0 = false ∧ Isar2.wfIsar2 0x0000000000006000#64 archTo83 0 0 0 0 = false
    ∧ Isar2.wfIsar2 0x0000000000000200#64 archTo83 0 0 0 0 = false ∧ Isar2.wfIsar2 0x0000000000000020#64 archTo83 0 0 0 0 = false
    ∧ Isar2.wfIsar2 0x0000000000000001#64 archTo83 0 0 0 0 = false := by decide

/-- W16 (W-11), W17, W18 and W19 (one field short of W-9 each), W20 (W-5), W21 (W-3, W-12, W-18). -/
theorem smoke_versions :
    Isar2.wfIsar2 v2 archAll 0 5 0 1 = false ∧ Isar2.wfIsar2 0x110012#64 archTo89 0 5 0 1 = false
    ∧ Isar2.wfIsar2 0x10010012#64 archTo88 0 5 0 1 = false ∧ Isar2.wfIsar2 0x10100012#64 archTo88 0 5 0 1 = false
    ∧ Isar2.wfIsar2 0#64 archTo87 0 1 0 0 = false ∧ Isar2.wfIsar2 0#64 archTo86 0 0 0 0 = false
    ∧ Isar2.wfIsar2 v2 archTo88 0 0 0 0 = false ∧ Isar2.wfIsar2 0x2000#64 archTo86 0 0 0 0 = false
    ∧ Isar2.wfIsar2 0x12#64 archTo88 0 3 0 0 = false := by decide

/-- W22 (W-7 by APA, W-16 by API) and W23 (W-8 by GPA, and by GPI). -/
theorem smoke_cross_register :
    Isar2.wfIsar2 v1 archAll 0 5 0 0 = false ∧ Isar2.wfIsar2 v5 archTo88 1 0 0 0 = false
    ∧ Isar2.wfIsar2 v1 archAll 0 0 0 1 = false ∧ Isar2.wfIsar2 v1 archAll 0 0 1 0 = false := by decide

/-- The order of the versions (00_scope.md R3): each later version without the one before it. -/
theorem smoke_arch_order :
    Arch.monotonic ⟨false, true, false, false, false, false⟩ = false ∧ Arch.monotonic ⟨true, false, true, false, false, false⟩ = false
    ∧ Arch.monotonic ⟨true, true, false, true, false, false⟩ = false ∧ Arch.monotonic ⟨true, true, true, false, true, false⟩ = false
    ∧ Arch.monotonic ⟨true, true, true, true, false, true⟩ = false ∧ Arch.monotonic archAll = true := by decide

/-- A register number outside 0 to 31 (30_encoding.md R93). -/
theorem smoke_register_number : RegNum.ofNat? 32 = none ∧ RegNum.ofNat? 31 = some 31 := by decide

/-! ## Configurations -/

/-- Parameters of the vectors with the value, version and ID_AA64ISAR1_EL1 fields that make it legal. -/
def params (v : Word) (arch : Arch) (apa gpa : Nibble) (idst fgt imp : Bool) : Params :=
  ⟨v, idst, fgt, imp, true, arch, 0, apa, 0, gpa⟩

/-- V2 as in W-9. -/
def implV2 (idst fgt imp : Bool) : Implementation := ⟨params v2 archTo88 5 1 idst fgt imp, by cases idst <;> cases fgt <;> cases imp <;> decide⟩
/-- V1 as in W-6. -/
def implV1 (idst fgt imp : Bool) : Implementation := ⟨params v1 archAll 0 0 idst fgt imp, by cases idst <;> cases fgt <;> cases imp <;> decide⟩
/-- V0 as in W-1. -/
def implV0 (idst fgt imp : Bool) : Implementation := ⟨params 0#64 archNone 0 0 idst fgt imp, by cases idst <;> cases fgt <;> cases imp <;> decide⟩

/-- An illegal configuration: WFXt = 1 (W-13). -/
def illegal : Params := params 0x1#64 archTo83 0 0 false false false

theorem smoke_illegal_configuration : Implementation.ofParams? illegal = none := by decide

/-- No question is answered about an illegal value (P-16: a test for "nonzero" would answer true). -/
theorem test_query : illegal.query Isar2.haveWFXT = none ∧ (implV2 true true true).params.query Isar2.haveWFXT = some true := by decide

/-! ## Feature predicates (section 4) -/

/-- P-1, P-3, P-4. -/
theorem test_predicates_v0 :
    Isar2.haveCSSC 0#64 = false ∧ Isar2.haveRPRFM 0#64 = false ∧ Isar2.havePRFMSLC 0#64 = false ∧ Isar2.haveSYSINSTR128 0#64 = false
    ∧ Isar2.haveSYSREG128 0#64 = false ∧ Isar2.haveCLRBHB 0#64 = false ∧ Isar2.constPACField 0#64 = false ∧ Isar2.haveBC 0#64 = false
    ∧ Isar2.haveMOPS 0#64 = false ∧ Isar2.addrAuthQARMA3 0#64 = false ∧ Isar2.genericAuthQARMA3 0#64 = false
    ∧ Isar2.havePACQARMA3 0#64 = false ∧ Isar2.haveWFXT 0#64 = false
    ∧ Isar2.recipEstimateMantissaBits 0#64 true = some 8 ∧ Isar2.recipEstimateMantissaBits 0#64 false = none := by decide

/-- P-5, P-6. -/
theorem test_predicates_v1 :
    Isar2.haveCSSC v1 ∧ Isar2.haveRPRFM v1 ∧ Isar2.havePRFMSLC v1 ∧ Isar2.haveSYSINSTR128 v1 ∧ Isar2.haveSYSREG128 v1
    ∧ Isar2.haveCLRBHB v1 ∧ Isar2.constPACField v1 ∧ Isar2.haveBC v1 ∧ Isar2.haveMOPS v1 ∧ Isar2.genericAuthQARMA3 v1
    ∧ Isar2.haveWFXT v1 ∧ Isar2.recipEstimateMantissaBits v1 true = some 12 := by decide

/-- P-7 to P-11: the four functions of APA3, in R140's column order. -/
theorem test_apa3_functions :
    (Isar2.haveEnhancedPAC v1, Isar2.haveEnhancedPAC2 v1, Isar2.haveFPAC v1, Isar2.haveFPACCombined v1)
      = (some false, some true, some true, some true)
    ∧ (Isar2.haveEnhancedPAC v9, Isar2.haveEnhancedPAC2 v9, Isar2.haveFPAC v9, Isar2.haveFPACCombined v9)
      = (some false, some true, some true, some false)
    ∧ (Isar2.haveEnhancedPAC v5, Isar2.haveEnhancedPAC2 v5, Isar2.haveFPAC v5, Isar2.haveFPACCombined v5)
      = (some false, some true, some false, some false)
    ∧ (Isar2.haveEnhancedPAC 0x2000#64, Isar2.haveEnhancedPAC2 0x2000#64, Isar2.haveFPAC 0x2000#64) = (some true, some false, none)
    ∧ (Isar2.haveEnhancedPAC 0x1000#64, Isar2.haveEnhancedPAC2 0x1000#64, Isar2.haveFPACCombined 0x1000#64)
      = (some false, some false, none) := by decide

/-- P-12 to P-14, P-17, P-18. -/
theorem test_setg_and_qarma3 :
    Isar2.haveSETG 0x10000#64 false = false ∧ Isar2.haveSETG 0x10000#64 true = true ∧ Isar2.haveSETG 0#64 true = false
    ∧ Isar2.havePACQARMA3 0x2000#64 = true ∧ Isar2.genericAuthQARMA3 0x2000#64 = false
    ∧ Isar2.addrAuthQARMA3 0x100#64 = false ∧ Isar2.havePACQARMA3 0x100#64 = true := by decide

/-! ## The accessor (section 5): start state of the vectors, one step each -/

/-- `x` all sentinel, `pc` 0x1000, a word placed there. -/
def start (impl : Implementation) (el : ExceptionLevel) (el2Enabled tge tid3 : Bool) (pc : Word) (word : Nat) : State :=
  State.withFetchWord
    { x := Vector.replicate 31 0xAAAAAAAAAAAAAAAA#64, pc := pc, el := el, el2Enabled := el2Enabled, hcrEl2Tge := tge,
      hcrEl2Tid3 := tid3, mem := [], impl := impl, levels := ⟨true, true⟩ } 32 word

/-- The fault of a step, if it is one. -/
def faultOf : Host.Outcome State Fault Refusal → Option Fault
  | .fault f => some f
  | .next _ => none
  | .refused _ => none

/-- `x[t]`, another register and `pc` after a step, if it completes. -/
def readOf (t j : RegNum) : Host.Outcome State Fault Refusal → Option (Word × Word × Word)
  | .next s => some (s.readX t, s.readX j, s.pc)
  | .fault _ => none
  | .refused _ => none

/-- M-1 to M-5, M-8 to M-10, M-12, M-16, M-17. -/
theorem test_mrs_raises :
    faultOf (step (start (implV2 false true true) .el0 true true true 0x1000 0xD5380640)) = some .undefined
    ∧ faultOf (step (start (implV2 false false false) .el0 false false false 0x1000 0xD5380640)) = some .undefined
    ∧ faultOf (step (start (implV2 true false false) .el0 false true true 0x1000 0xD5380643)) = some (.systemAccessTrap .el1 0x18)
    ∧ faultOf (step (start (implV2 true true false) .el0 true false true 0x1000 0xD5380643)) = some (.systemAccessTrap .el1 0x18)
    ∧ faultOf (step (start (implV2 true false false) .el0 true true false 0x1000 0xD5380643)) = some (.systemAccessTrap .el2 0x18)
    ∧ faultOf (step (start (implV2 false true false) .el1 true false true 0x1000 0xD5380647)) = some (.systemAccessTrap .el2 0x18)
    ∧ faultOf (step (start (implV2 false false false) .el1 true false true 0x1000 0xD5380647)) = some (.systemAccessTrap .el2 0x18)
    ∧ faultOf (step (start (implV0 false false true) .el1 true false true 0x1000 0xD5380647)) = some (.systemAccessTrap .el2 0x18)
    ∧ faultOf (step (start (implV0 false true false) .el1 true false true 0x1000 0xD5380647)) = some (.systemAccessTrap .el2 0x18)
    ∧ faultOf (step (start (implV1 true true true) .el1 true false true 0x1000 0xD538065F)) = some (.systemAccessTrap .el2 0x18)
    ∧ faultOf (step (start (implV1 true true true) .el0 true true true 0x1000 0xD538065F)) = some (.systemAccessTrap .el2 0x18) := by
  decide

/-- M-6, M-7, M-11, M-13, M-14, M-15; register 5 keeps the sentinel. -/
theorem test_mrs_reads :
    readOf 7 5 (step (start (implV2 false true true) .el1 false true true 0x1000 0xD5380647)) = some (v2, 0xAAAAAAAAAAAAAAAA, 0x1004)
    ∧ readOf 7 5 (step (start (implV2 false true true) .el1 true true false 0x1000 0xD5380647)) = some (v2, 0xAAAAAAAAAAAAAAAA, 0x1004)
    ∧ readOf 7 5 (step (start (implV0 false false false) .el1 true false true 0x1000 0xD5380647)) = some (0, 0xAAAAAAAAAAAAAAAA, 0x1004)
    ∧ readOf 30 5 (step (start (implV1 false true true) .el2 true true true 0x1000 0xD538065E)) = some (v1, 0xAAAAAAAAAAAAAAAA, 0x1004)
    ∧ readOf 30 5 (step (start (implV1 false true true) .el3 true true true 0x1000 0xD538065E)) = some (v1, 0xAAAAAAAAAAAAAAAA, 0x1004)
    ∧ readOf 31 5 (step (start (implV1 true true true) .el2 true true true 0x1000 0xD538065F)) = some (0, 0xAAAAAAAAAAAAAAAA, 0x1004) := by
  decide

/-- From reset, the first instruction placed is the one that runs. -/
theorem test_first_instruction_after_reset :
    step (State.reset.withFetchWord 32 0xD5380645) = exec (.mrsIdAa64isar2El1 5) (State.reset.withFetchWord 32 0xD5380645) := by rfl

/-- The numbers of 95_test_vectors.md section 5 for t = 3, 7, 31. -/
theorem test_general_syndrome :
    generalSyndrome 3 = 0x6234006D#64 ∧ generalSyndrome 7 = 0x623400ED#64 ∧ generalSyndrome 31 = 0x623403ED#64 := by decide

/-- The return address of general knowledge is the trapped instruction's own (60_exceptions.md R166). -/
theorem test_general_return_address : (generalTrapRecord 3 0x1000).returnAddress = 0x1000#64 := by decide

/-- M-5 records the parameter at EL2, t = 3 and its own address; M-1 (Undefined) and M-13 (a read) record nothing. -/
theorem test_trap_record :
    mrsTrapRecord 3 (start (implV2 true false false) .el0 true true false 0x1000 0xD5380643) = some (Config.trapSyndrome .el2 3 0x1000)
    ∧ mrsTrapRecord 0 (start (implV2 false true true) .el0 true true true 0x1000 0xD5380640) = none
    ∧ mrsTrapRecord 30 (start (implV1 false true true) .el2 true true true 0x1000 0xD538065E) = none := ⟨rfl, rfl, rfl⟩

/-- P-2. -/
theorem test_rprfm_nop :
    readOf 7 5 (rprfmHint (start (implV0 false false false) .el0 false false false 0x1000 0)) = some (0xAAAAAAAAAAAAAAAA, 0xAAAAAAAAAAAAAAAA, 0x1004) := by
  decide

/-! ## Witnesses: for each statement with hypotheses, states and operands that meet them -/

/-- A state at the last address a read completes from. -/
def atEdge (el : ExceptionLevel) : State := start (implV1 true true true) el false true true 0xFFFFFFFFFFFFFFF8 0xD5380640
/-- A state at the top of the address space. -/
def atTop : State := start (implV1 true true true) .el3 true true true 0xFFFFFFFFFFFFFFFC 0xD538065F
/-- Two accessors in a row, at EL2. -/
def twoReads : State := (start (implV1 true true true) .el2 true true true 0x1000 0xD5380640).place 0x1004 [0x45#8, 0x06#8, 0x38#8, 0xD5#8]
/-- A PE without EL2. -/
def withoutEl2 : State := { start (implV2 true true true) .el0 false true true 0x1000 0xD5380640 with levels := ⟨false, true⟩ }

theorem witness_el0_three_outcomes :
    (atEdge .el0).el = .el0
    ∧ exec (.mrsIdAa64isar2El1 31) (start (implV1 true true true) .el0 true true true 0x1000 0) = .fault (.systemAccessTrap .el2 0x18)
    ∧ exec (.mrsIdAa64isar2El1 0) (start (implV1 true true true) .el0 false true true 0x1000 0) = .fault (.systemAccessTrap .el1 0x18)
    ∧ exec (.mrsIdAa64isar2El1 0) (start (implV1 false true true) .el0 true true true 0x1000 0) = .fault .undefined :=
  ⟨rfl, rfl, rfl, rfl⟩

/-- Both clauses of the EL1 statement, the second at the last address. -/
theorem witness_el1_both_clauses :
    (start (implV0 true false true) .el1 true false true 0x1000 0).tid3Traps = true
    ∧ (start (implV0 true false false) .el1 true false true 0x1000 0).tid3Traps = false
    ∧ (atEdge .el1).el = .el1 ∧ (atEdge .el1).el2Enabled = false ∧ (atEdge .el1).pc.toNat + 4 < 2 ^ 64 := by decide

theorem witness_el2_el3 : (atEdge .el2).el = .el2 ∧ (atEdge .el3).el = .el3 ∧ (atEdge .el3).pc.toNat + 4 < 2 ^ 64 := by decide

/-- Completion, the zero register and the frame: a state that may read at each level. -/
theorem witness_may_read :
    (atEdge .el1).mayRead ∧ (atEdge .el2).mayRead ∧ (atEdge .el3).mayRead ∧ (atEdge .el1).pc.toNat + 4 < 2 ^ 64 := by
  unfold State.mayRead; decide

theorem witness_next_state : ∃ s', exec (.mrsIdAa64isar2El1 0) (atEdge .el1) = .next s' := ⟨_, rfl⟩
theorem witness_next_state_xzr : ∃ s', exec (.mrsIdAa64isar2El1 31) (atEdge .el3) = .next s' := ⟨_, rfl⟩
theorem witness_top : atTop.mayRead ∧ atTop.pc = 0xFFFFFFFFFFFFFFFC#64 := ⟨.inr (.inl rfl), rfl⟩

theorem witness_second_read :
    ∃ s₁ s₂, exec (.mrsIdAa64isar2El1 7) twoReads = .next s₁ ∧ exec (.mrsIdAa64isar2El1 7) s₁ = .next s₂ := ⟨_, _, rfl, rfl⟩

theorem witness_predating :
    (start Implementation.predating .el1 true true false 0x1000 0).isar2 = 0#64
    ∧ (start Implementation.predating .el1 true true false 0x1000 0).mayRead
    ∧ (start Implementation.predating .el1 true true false 0x1000 0).pc.toNat + 4 < 2 ^ 64 := by
  unfold State.mayRead; decide

/-- Two EL0 states that differ in the register, FEAT_FGT, the IMPLEMENTATION DEFINED choice, TID3 and, unrouted, TGE. -/
theorem witness_el0_pair :
    (start (implV1 true true true) .el0 false true true 0x1000 0).el = .el0
    ∧ (start (implV0 true false false) .el0 false false false 0x2000 0).el = .el0
    ∧ (implV1 true true true).params.haveIDST = (implV0 true false false).params.haveIDST
    ∧ (start (implV1 true true true) .el0 false true true 0x1000 0).tgeRoutes
      = (start (implV0 true false false) .el0 false false false 0x2000 0).tgeRoutes := by decide

/-- Two EL1 states that differ in TGE, FEAT_IDST, the register's (nonzero) value and the program counter. -/
theorem witness_el1_pair :
    (start (implV1 true true true) .el1 true true true 0x1000 0).el = .el1
    ∧ (start (implV2 false true true) .el1 true false true 0x2000 0).el = .el1
    ∧ (implV1 true true true).params.haveFGT = (implV2 false true true).params.haveFGT
    ∧ (implV1 true true true).params.impDefTid3TrapsZeroReg = (implV2 false true true).params.impDefTid3TrapsZeroReg
    ∧ v1 ≠ 0#64 ∧ v2 ≠ 0#64 := by decide

theorem witness_el2_disabled : (atEdge .el1).el2Enabled = false := by decide
theorem witness_without_el2 : withoutEl2.levelsConsistent = true ∧ withoutEl2.levels.haveEL2 = false := by decide

theorem witness_step_runs :
    twoReads.pc.toNat % 4 = 0 ∧ twoReads.mem.read 0x1000 = some 0x40#8 ∧ twoReads.mem.read 0x1001 = some 0x06#8
    ∧ twoReads.mem.read 0x1002 = some 0x38#8 ∧ twoReads.mem.read 0x1003 = some 0xD5#8
    ∧ decode [0x40#8, 0x06#8, 0x38#8, 0xD5#8] = .ok (.mrsIdAa64isar2El1 0, []) := by decide

/-- One state for each clause: pc 0x1002, only the last byte missing, the write form at the last aligned address. -/
theorem witness_step_stops :
    faultOf (step { twoReads with pc := 0x1002#64 }) = some .pcAlignment
    ∧ faultOf (step { twoReads with mem := [(0x1000, 0x40#8), (0x1001, 0x06#8), (0x1002, 0x38#8)] }) = some .noInstruction
    ∧ (start (implV1 true true true) .el3 true true true 0xFFFFFFFFFFFFFFFC 0xD5180640).fetch = some [0x40#8, 0x06#8, 0x18#8, 0xD5#8]
    ∧ decode [0x40#8, 0x06#8, 0x18#8, 0xD5#8] = .error .writeAccessor := by decide

theorem witness_placed : (atEdge .el3).pc.toNat % 4 = 0 := by decide

theorem witness_invariant : twoReads.Inv ∧ ∃ s', step twoReads = .next s' := ⟨⟨by decide, by decide, by decide⟩, _, rfl⟩

/-- Each way a step stops (the traps and Undefined are in test_mrs_raises, two faults in witness_step_stops). -/
theorem witness_step_refusals :
    step atTop = .refused .pcWrap
    ∧ step (start (implV1 true true true) .el3 true true true 0x1000 0xD5180640) = .refused (.notAnInstruction .writeAccessor) :=
  ⟨rfl, rfl⟩

/-- A run of two steps, and of none. -/
theorem witness_run : (∃ s', Sys2Proof.core.run 2 twoReads = .next s') ∧ ∃ s', Sys2Proof.core.run 0 twoReads = .next s' := ⟨⟨_, rfl⟩, _, rfl⟩

/-- Two runs of one PE at different levels, of different lengths, each followed by a read. -/
theorem witness_two_runs :
    twoReads.impl = (atEdge .el1).impl
    ∧ (∃ m e, Sys2Proof.core.run 1 twoReads = .next m ∧ exec (.mrsIdAa64isar2El1 5) m = .next e)
    ∧ ∃ m e, Sys2Proof.core.run 0 (atEdge .el1) = .next m ∧ exec (.mrsIdAa64isar2El1 30) m = .next e :=
  ⟨rfl, ⟨_, _, rfl, rfl⟩, _, _, rfl, rfl⟩

theorem witness_reserved_bits_zero : Isar2.reservedBitsZero v1 = true := by decide

/-- Every version holds, and the read of t = 0 completes. -/
theorem witness_versions :
    (atEdge .el1).impl.params.arch = archAll ∧ ∃ s', exec (.mrsIdAa64isar2El1 0) (atEdge .el1) = .next s' := ⟨rfl, _, rfl⟩

/-- APA and GPA nonzero (W-9), and a read. -/
theorem witness_cross_register :
    (implV2 true true true).params.isar1Apa ≠ 0#4 ∧ (implV2 true true true).params.isar1Gpa ≠ 0#4
    ∧ (faultOf (exec (.mrsIdAa64isar2El1 0) (start (implV2 true true true) .el3 true true true 0x1000 0))).isNone = true := by decide

theorem witness_armv86 :
    (atEdge .el1).impl.params.arch.ge_v8_6 = true ∧ (atEdge .el1).impl.params.isar1Api = 0#4
    ∧ (atEdge .el1).impl.params.isar1Apa = 0#4 := by decide

theorem witness_power_on : illegal.legal = false ∧ (implV1 true true true).params.legal = true := by decide

/-- A value for each row of the APA3 table and each named feature. -/
theorem witness_apa3_rows :
    Isar2.apa3 0#64 = 0 ∧ Isar2.apa3 0x1000#64 = 1 ∧ Isar2.apa3 0x2000#64 = 2 ∧ Isar2.apa3 v5 = 3 ∧ Isar2.apa3 v9 = 4
    ∧ Isar2.apa3 v1 = 5 := by decide

theorem witness_rpres : Isar2.rpres 0#64 = 0 ∧ Isar2.rpres v1 = 1 := by decide
theorem witness_rprfm : Isar2.rprfm v2 = 0 ∧ Isar2.rprfm v1 = 1 := by decide

end Sys2Proof.Tests
end

section
/-! The read where it may happen, as one equation for the next state, and what the destination then holds. -/

namespace Sys2Proof.Machine

theorem State.pcCanAdvance_iff (s : State) : s.pcCanAdvance = true ↔ s.pc.toNat + 4 < 2 ^ 64 := by
  simp [State.pcCanAdvance]

/-- Reading back the register just written, XZR included (10_state.md R53; log 14). -/
theorem State.readX_writeX_self (s : State) (t : RegNum) (v : Word) :
    (s.writeX t v).readX t = if t = 31 then 0#64 else v := by
  by_cases ht : t = 31
  · subst ht
    simp
  · simp [ht, s.readX_writeX_same t v ht]

/-- The read of 40_mrs_access.md R110, in every state that may read and can advance. -/
theorem exec_mrs_of_mayRead {s : State} (t : RegNum) (hread : s.mayRead) (hpc : s.pc.toNat + 4 < 2 ^ 64) :
    exec (.mrsIdAa64isar2El1 t) s = .next ((s.writeX t s.isar2).setPc (s.pc + 4#64)) := by
  have hadv : s.pcCanAdvance = true := s.pcCanAdvance_iff.mpr hpc
  rcases execMrsIdAa64isar2El1_cases t s with ⟨-, -, hnext⟩ | ⟨-, hstuck, -⟩ | ⟨hnot, -⟩
  · exact hnext
  · simp [hadv] at hstuck
  · exact absurd hread hnot

/-- Settles O13: the completed read leaves the register's value, here zero, in `x[t]`, and XZR reads as zero anyway. -/
theorem predatingImplementationReadsZero : Obligations.PredatingImplementationReadsZero := by
  intro t s hzero hread hpc
  refine ⟨_, exec_mrs_of_mayRead t hread hpc, ?_⟩
  rw [State.setPc_readX, State.readX_writeX_self, hzero, ite_self]

end Sys2Proof.Machine
end

section
/-! Runs: whatever every completed step keeps of its start, every run keeps (20_memory.md R77). -/

namespace Sys2Proof.Machine

/-- A run of `k + 1` steps is a completed step followed by a run of `k`. -/
theorem run_succ_next {k : Nat} {s s' : State} (h : Sys2Proof.core.run (k + 1) s = .next s') :
    ∃ m, step s = .next m ∧ Sys2Proof.core.run k m = .next s' := by
  simp only [Host.Core.run] at h
  split at h
  · next m hstep => exact ⟨m, hstep, h⟩
  · cases h
  · cases h

/-- The induction over runs: a reflexive and transitive relation that every completed step is in relates the ends of every run. -/
theorem run_related {R : State → State → Prop} (hrefl : ∀ s, R s s)
    (htrans : ∀ {a b c}, R a b → R b c → R a c) (hstep : ∀ {a b}, step a = .next b → R a b)
    {k : Nat} {s s' : State} (h : Sys2Proof.core.run k s = .next s') : R s s' := by
  induction k generalizing s with
  | zero =>
    cases h
    exact hrefl _
  | succ k ih =>
    obtain ⟨m, hfirst, hrest⟩ := run_succ_next h
    exact htrans (hstep hfirst) (ih hrest)

theorem State.SameControl.refl (s : State) : s.SameControl s :=
  ⟨rfl, rfl, rfl, rfl, rfl, rfl, rfl⟩

theorem State.SameControl.trans {a b c : State} (h₁ : a.SameControl b) (h₂ : b.SameControl c) : a.SameControl c where
  el := h₂.el.trans h₁.el
  el2Enabled := h₂.el2Enabled.trans h₁.el2Enabled
  hcrEl2Tge := h₂.hcrEl2Tge.trans h₁.hcrEl2Tge
  hcrEl2Tid3 := h₂.hcrEl2Tid3.trans h₁.hcrEl2Tid3
  mem := h₂.mem.trans h₁.mem
  impl := h₂.impl.trans h₁.impl
  levels := h₂.levels.trans h₁.levels

/-- The register is one of the parameters (log 1), so it is the same where they are. -/
theorem State.SameControl.isar2_eq {s s' : State} (h : s.SameControl s') : s'.isar2 = s.isar2 := by
  rw [State.isar2, State.isar2, h.impl]

/-- Writing a general-purpose register and the program counter changes nothing else (40_mrs_access.md R115). -/
theorem State.sameControl_writeX_setPc (s : State) (t : RegNum) (v p : Word) : s.SameControl ((s.writeX t v).setPc p) := by
  constructor <;> simp

theorem step_sameControl {s s' : State} (h : step s = .next s') : s.SameControl s' := by
  obtain ⟨-, -, -, t, rfl⟩ := step_next h
  exact s.sameControl_writeX_setPc t _ _

/-- Settles O25, by induction over the run: each completed step keeps everything but `x[t]` and the program counter. -/
theorem runsKeepRegisterAndProgramText : Obligations.RunsKeepRegisterAndProgramText := by
  intro k s s' h
  have hsame : s.SameControl s' := run_related State.SameControl.refl State.SameControl.trans step_sameControl h
  exact ⟨hsame, hsame.isar2_eq⟩

end Sys2Proof.Machine
end

section
/-! What an instruction cannot do at some states: trap to an EL2 that is not there, pass the top of the address space, or, for an
unimplemented RPRFM, anything but advance. -/

namespace Sys2Proof.Machine

theorem State.tgeRoutes_iff (s : State) : s.tgeRoutes = true ↔ s.el2Enabled = true ∧ s.hcrEl2Tge = true := by
  simp [State.tgeRoutes]

/-- Both routes of the accessor to EL2 test `EL2Enabled` (40_mrs_access.md R111, R112). -/
theorem el2Enabled_of_trap_to_el2 {t : RegNum} {s : State} {c : Nat}
    (h : execMrsIdAa64isar2El1 t s = .fault (.systemAccessTrap .el2 c)) : s.el2Enabled = true := by
  rcases execMrsIdAa64isar2El1_cases t s with ⟨-, -, he⟩ | ⟨-, -, he⟩ | ⟨-, hstop⟩
  · simp [he] at h
  · simp [he] at h
  · rcases hstop with ⟨-, -, he⟩ | ⟨-, -, -, he⟩ | ⟨-, -, htge, -⟩ | ⟨-, htid3, -⟩
    · simp [he] at h
    · simp [he] at h
    · exact (s.tgeRoutes_iff.mp htge).1
    · exact (s.tid3Traps_iff.mp htid3).1

/-- EL2 is enabled only where it is implemented (10_state.md R51). -/
theorem State.haveEL2_of_el2Enabled {s : State} (h : s.levelsConsistent = true) (he : s.el2Enabled = true) :
    s.levels.haveEL2 = true := by
  simp only [State.levelsConsistent, Bool.and_eq_true, Isar2.implies_iff] at h
  obtain ⟨⟨hel2, -⟩, -⟩ := h
  exact hel2 he

/-- Settles O17: a trap to EL2 needs EL2 enabled, and consistent levels enable it only where it is implemented. -/
theorem noTrapToAnAbsentEl2 : Obligations.NoTrapToAnAbsentEl2 := by
  intro i s c hlevels habsent htrap
  cases i with
  | mrsIdAa64isar2El1 t =>
    have hpresent := State.haveEL2_of_el2Enabled hlevels (el2Enabled_of_trap_to_el2 htrap)
    simp [habsent] at hpresent

/-- The accessor where it may read and the program counter cannot advance (10_state.md R54; log 16). -/
theorem exec_mrs_refused_of_mayRead {s : State} (t : RegNum) (hread : s.mayRead) (hpc : s.pcCanAdvance = false) :
    exec (.mrsIdAa64isar2El1 t) s = .refused .pcWrap := by
  rcases execMrsIdAa64isar2El1_cases t s with ⟨-, hadv, -⟩ | ⟨-, -, hrefused⟩ | ⟨hnot, -⟩
  · simp [hpc] at hadv
  · exact hrefused
  · exact absurd hread hnot

/-- Settles O11: 2^64 - 4 is an address from which the program counter cannot advance. -/
theorem readAtTheTopOfTheAddressSpaceIsRefused : Obligations.ReadAtTheTopOfTheAddressSpaceIsRefused := by
  intro t s hread hpc
  exact exec_mrs_refused_of_mayRead t hread (by simp [State.pcCanAdvance, hpc])

/-- Settles O49: the two values of the field pick the two branches of the hint, and the first completes. -/
theorem unimplementedRprfmIsANop : Obligations.UnimplementedRprfmIsANop := by
  intro s
  constructor
  · intro hfield hpc
    have habsent : Isar2.haveRPRFM s.isar2 = false := by simp [Isar2.haveRPRFM, hfield]
    rw [rprfmHint, habsent]
    exact State.complete_next (s.pcCanAdvance_iff.mpr hpc)
  · intro hfield
    have hpresent : Isar2.haveRPRFM s.isar2 = true := by simp [Isar2.haveRPRFM, hfield]
    rw [rprfmHint, hpresent]
    rfl

end Sys2Proof.Machine
end

section
/-! The fifteen ranges of the register (10_state.md R21), two of them reserved: taking a concatenation apart and putting it together. -/

namespace Sys2Proof.Isar2

theorem reservedBitsZero_iff (v : Word) : reservedBitsZero v = true ↔ res0Hi v = 0#8 ∧ res0Mid v = 0#4 := by
  simp [reservedBitsZero]

theorem toNat_compose (f : Isar2Fields) : (compose f).toNat =
    f.cssc.toNat * 2 ^ 52 + f.rprfm.toNat * 2 ^ 48 + f.prfmslc.toNat * 2 ^ 40 + f.sysinstr128.toNat * 2 ^ 36
      + f.sysreg128.toNat * 2 ^ 32 + f.clrbhb.toNat * 2 ^ 28 + f.pacFrac.toNat * 2 ^ 24 + f.bc.toNat * 2 ^ 20
      + f.mops.toNat * 2 ^ 16 + f.apa3.toNat * 2 ^ 12 + f.gpa3.toNat * 2 ^ 8 + f.rpres.toNat * 2 ^ 4 + f.wfxt.toNat := by
  simp only [compose, toNat_concat, BitVec.toNat_ofNat]
  omega

/-- The place of each field as a number: what stands to its left is a multiple of sixteen, what stands to its right is too small to count. -/
theorem fields_compose (f : Isar2Fields) : fields (compose f) = f := by
  cases f
  simp only [fields, cssc, rprfm, prfmslc, sysinstr128, sysreg128, clrbhb, pacFrac, bc, mops, apa3, gpa3, rpres, wfxt,
    Isar2Fields.mk.injEq, ← BitVec.toNat_inj, toNat_field, toNat_compose]
  and_intros <;> omega

theorem reservedBitsZero_compose (f : Isar2Fields) : reservedBitsZero (compose f) = true := by
  simp only [reservedBitsZero_iff, res0Hi, res0Mid, ← BitVec.toNat_inj, toNat_field, toNat_compose, BitVec.toNat_ofNat]
  constructor <;> omega

/-- The ranges leave no gap: from the left, each joins the next, until one range is the whole register. -/
theorem all_ranges_concat (v : Word) :
    res0Hi v ++ cssc v ++ rprfm v ++ res0Mid v ++ prfmslc v ++ sysinstr128 v ++ sysreg128 v ++ clrbhb v ++ pacFrac v ++ bc v
      ++ mops v ++ apa3 v ++ gpa3 v ++ rpres v ++ wfxt v = v := by
  simp only [res0Hi, cssc, rprfm, res0Mid, prfmslc, sysinstr128, sysreg128, clrbhb, pacFrac, bc, mops, apa3, gpa3, rpres,
    wfxt, BitVec.extractLsb'_append_extractLsb'_eq_extractLsb']
  exact BitVec.extractLsb'_eq_self

theorem compose_fields {v : Word} (h : reservedBitsZero v = true) : compose (fields v) = v := by
  obtain ⟨hhi, hmid⟩ := (reservedBitsZero_iff v).mp h
  have hall := all_ranges_concat v
  rw [hhi, hmid] at hall
  exact hall

/-- Settles O33: both inverses, and the sum that pins the place of every field. -/
theorem fieldsTileTheRegister : Obligations.FieldsTileTheRegister :=
  ⟨fun f => ⟨fields_compose f, reservedBitsZero_compose f⟩, fun _ => compose_fields, toNat_compose⟩

end Sys2Proof.Isar2
end

section
/-! The clauses of 41_feature_predicates.md R146 hold of the register of every implementation, hence of every value read. -/

namespace Sys2Proof.Isar2

/-- The legality predicate gives the clauses W1 to W23. -/
theorem clauses_of_wfIsar2 {v : Word} {arch : Arch} {api apa gpi gpa : Nibble} (h : wfIsar2 v arch api apa gpi gpa = true) :
    Clauses v arch api apa gpi gpa := by
  simp only [wfIsar2, Bool.and_eq_true, reservedBitsZero_iff] at h
  obtain ⟨⟨⟨⟨w1, w2⟩, hdefined⟩, hversion⟩, hcross⟩ := h
  simp only [definedValues, Bool.and_eq_true, Bool.or_eq_true, twoValued_iff, decide_eq_true_eq, apa3Defined_iff, beq_iff_eq,
    and_assoc] at hdefined
  simp only [versionPermits, Bool.and_eq_true, Bool.or_eq_true, implies_iff, beq_iff_eq, and_assoc, or_assoc] at hversion
  simp only [crossRegister, Bool.and_eq_true, Bool.or_eq_true, implies_iff, beq_iff_eq, bne_iff_ne] at hcross
  obtain ⟨w3, w4, w5, w6, w7, w8, w9, w10, w11, w12, w13, w14, w15⟩ := hdefined
  obtain ⟨w16, w17, w18, w19, w20, w21⟩ := hversion
  obtain ⟨w22, w23⟩ := hcross
  constructor <;> simpa only [List.mem_cons, List.not_mem_nil, or_false]

end Sys2Proof.Isar2

namespace Sys2Proof

theorem Params.clauses_of_legal {p : Params} (h : p.legal = true) :
    Isar2.Clauses p.isar2 p.arch p.isar1Api p.isar1Apa p.isar1Gpi p.isar1Gpa :=
  Isar2.clauses_of_wfIsar2 (Bool.and_eq_true_iff.mp h).2

namespace Machine

/-- A state's parameters are legal by construction (log 23). -/
theorem State.clauses (s : State) :
    Isar2.Clauses s.isar2 s.impl.params.arch s.impl.params.isar1Api s.impl.params.isar1Apa s.impl.params.isar1Gpi
      s.impl.params.isar1Gpa :=
  Params.clauses_of_legal s.impl.legal

/-- A completed read leaves the register's value in its destination (40_mrs_access.md R110). -/
theorem readX_of_exec_mrs_next {t : RegNum} {s s' : State} (ht : t ≠ 31) (h : exec (.mrsIdAa64isar2El1 t) s = .next s') :
    s'.readX t = s.isar2 := by
  obtain ⟨-, -, rfl⟩ := execMrsIdAa64isar2El1_next h
  rw [State.setPc_readX, State.readX_writeX_same _ _ _ ht]

/-- Settles O36: the value read is the register, which obeys W16 to W20. -/
theorem readValueObeysTheVersionConstraints : Obligations.ReadValueObeysTheVersionConstraints := by
  intro t s s' ht h
  rw [readX_of_exec_mrs_next ht h]
  exact ⟨s.clauses.w16, s.clauses.w17, s.clauses.w18, s.clauses.w19, s.clauses.w20⟩

/-- Settles O37: the value read is the register, which obeys W22 and W23. -/
theorem readValueObeysTheCrossRegisterConstraints : Obligations.ReadValueObeysTheCrossRegisterConstraints := by
  intro t s s' ht h
  rw [readX_of_exec_mrs_next ht h]
  exact ⟨s.clauses.w22, s.clauses.w23⟩

/-- Settles O38: W21, its three values as numbers. -/
theorem apa3FromArmv86 : Obligations.Apa3FromArmv86 := by
  intro s hv86 hapi hapa
  exact List.mem_map_of_mem (f := BitVec.toNat) (s.clauses.w21 ⟨hv86, hapi, hapa⟩)

end Machine

end Sys2Proof
end

section
/-! The mask and the bound of 95_test_vectors.md section 2: what the defined values of each field allow, put together over the register. -/

namespace Sys2Proof.Isar2

/-! Of a field with the values 0 and 1 the lowest bit alone can be one, of APA3 the three lower bits, of WFXt bit 1. -/

theorem and_eq_zero_of_zero_or_one : ∀ {f : Nibble}, f ∈ [0b0000#4, 0b0001#4] → f &&& 0xE#4 = 0#4 := by decide

theorem and_eq_zero_of_apa3_defined : ∀ {f : Nibble},
    f ∈ [0b0000#4, 0b0001#4, 0b0010#4, 0b0011#4, 0b0100#4, 0b0101#4] → f &&& 0x8#4 = 0#4 := by decide

theorem and_eq_zero_of_wfxt_defined : ∀ {f : Nibble}, f ∈ [0b0000#4, 0b0010#4] → f &&& 0xD#4 = 0#4 := by decide

theorem toNat_le_of_zero_or_one : ∀ {f : Nibble}, f ∈ [0b0000#4, 0b0001#4] → f.toNat ≤ 1 := by decide

theorem toNat_le_of_apa3_defined : ∀ {f : Nibble},
    f ∈ [0b0000#4, 0b0001#4, 0b0010#4, 0b0011#4, 0b0100#4, 0b0101#4] → f.toNat ≤ 5 := by decide

theorem toNat_le_of_wfxt_defined : ∀ {f : Nibble}, f ∈ [0b0000#4, 0b0010#4] → f.toNat ≤ 2 := by decide

/-- Range by range: all of a reserved one is under the mask, and of a field the bits no defined value has. -/
theorem Clauses.and_mask {v : Word} {arch : Arch} {api apa gpi gpa : Nibble} (h : Clauses v arch api apa gpi gpa) :
    v &&& 0xFFEEFEEEEEEE8EED#64 = 0#64 := by
  have hmask : 0xFF#8 ++ 0xE#4 ++ 0xE#4 ++ 0xF#4 ++ 0xE#4 ++ 0xE#4 ++ 0xE#4 ++ 0xE#4 ++ 0xE#4 ++ 0xE#4 ++ 0xE#4 ++ 0x8#4
      ++ 0xE#4 ++ 0xE#4 ++ 0xD#4 = 0xFFEEFEEEEEEE8EED#64 := by decide
  have hranges := congrArg₂ (· &&& ·) (all_ranges_concat v) hmask
  simp only [BitVec.and_append, h.w1, h.w2, and_eq_zero_of_zero_or_one, h.w3, h.w4, h.w5, h.w6, h.w7, h.w8, h.w9, h.w10, h.w11,
    and_eq_zero_of_apa3_defined, h.w12, h.w13, h.w14, and_eq_zero_of_wfxt_defined, h.w15] at hranges
  exact hranges.symm

/-- The sum of the fields is largest where each field is. -/
theorem Clauses.toNat_le {v : Word} {arch : Arch} {api apa gpi gpa : Nibble} (h : Clauses v arch api apa gpi gpa) :
    v.toNat ≤ 0x0011011111115112 := by
  have hsum := toNat_compose (fields v)
  rw [compose_fields ((reservedBitsZero_iff v).mpr ⟨h.w1, h.w2⟩)] at hsum
  simp only [fields] at hsum
  linarith only [hsum, toNat_le_of_zero_or_one h.w3, toNat_le_of_zero_or_one h.w4, toNat_le_of_zero_or_one h.w5,
    toNat_le_of_zero_or_one h.w6, toNat_le_of_zero_or_one h.w7, toNat_le_of_zero_or_one h.w8, toNat_le_of_zero_or_one h.w9,
    toNat_le_of_zero_or_one h.w10, toNat_le_of_zero_or_one h.w11, toNat_le_of_apa3_defined h.w12,
    toNat_le_of_zero_or_one h.w13, toNat_le_of_zero_or_one h.w14, toNat_le_of_wfxt_defined h.w15]

end Sys2Proof.Isar2

namespace Sys2Proof.Machine

/-- Settles O39: the value read is the register, whose defined values give the mask and the bound. -/
theorem readValueStaysInsideTheLegalMask : Obligations.ReadValueStaysInsideTheLegalMask := by
  intro t s s' ht h
  rw [readX_of_exec_mrs_next ht h]
  exact ⟨s.clauses.and_mask, s.clauses.toNat_le⟩

end Sys2Proof.Machine
end

section
/-! Power-on, and what two fields say of the PE. -/

namespace Sys2Proof

theorem Implementation.ofParams?_of_legal {p : Params} (h : p.legal = true) : Implementation.ofParams? p = some ⟨p, h⟩ :=
  dif_pos h

theorem Implementation.ofParams?_of_illegal {p : Params} (h : p.legal = false) : Implementation.ofParams? p = none :=
  dif_neg (by simp [h])

namespace Machine

theorem powerOn_of_legal {p : Params} (levels : Levels) (h : p.legal = true) :
    powerOn p levels = .next (State.resetOf ⟨p, h⟩ levels) := by
  rw [powerOn, Implementation.ofParams?_of_legal h]

theorem powerOn_of_illegal {p : Params} (levels : Levels) (h : p.legal = false) :
    powerOn p levels = .refused .illegalConfiguration := by
  rw [powerOn, Implementation.ofParams?_of_illegal h]

/-- Settles O42: the reset state of legal parameters holds them as they are, and W1 and W2 clear the reserved ranges. -/
theorem powerOnRefusesExactlyIllegalConfigurations : Obligations.PowerOnRefusesExactlyIllegalConfigurations := by
  intro p levels
  refine ⟨powerOn_of_illegal levels, fun hlegal => ?_⟩
  have hclauses := Params.clauses_of_legal hlegal
  exact ⟨_, powerOn_of_legal levels hlegal, rfl, rfl, hclauses.w1, hclauses.w2⟩

end Machine

/-- Settles O46: each of the five values picks its row of `featureOfApa3`, and any nonzero one is the first disjunct of FEAT_PACQARMA3. -/
theorem apa3ValueNamesItsFeature : Obligations.Apa3ValueNamesItsFeature := by
  intro p
  have named {a : Nibble} (ha : Isar2.apa3 p.isar2 = a) :
      Isar2.featureOfApa3 (Isar2.apa3 p.isar2) = Isar2.featureOfApa3 a := congrArg _ ha
  exact ⟨fun ha => if_pos (named ha), fun ha => if_pos (named ha), fun ha => if_pos (named ha), fun ha => if_pos (named ha),
    fun ha => if_pos (named ha), fun ha => by simp [Params.featureImplemented, Isar2.havePACQARMA3, ha]⟩

/-- Settles O48: with FPCR.AH 1 the field's two values pick their rows; with FPCR.AH 0 no row is consulted. -/
theorem reciprocalEstimateMantissaBits : Obligations.ReciprocalEstimateMantissaBits := by
  intro v
  refine ⟨fun hzero => ?_, fun hone => ?_, rfl⟩
  · simp [Isar2.recipEstimateMantissaBits, hzero]
  · simp [Isar2.recipEstimateMantissaBits, hone]

end Sys2Proof
end

section
/-! What every completed step keeps, and what every completed read finds (20_memory.md R75 to R77). -/

namespace Sys2Proof.Machine

theorem State.pcAligned_iff (s : State) : s.pcAligned = true ↔ s.pc.toNat % 4 = 0 := by
  simp [State.pcAligned]

/-- The advance by four keeps the alignment, since it does not wrap (20_memory.md R75; log 15, log 16). -/
theorem State.pcAligned_setPc_add_four {s : State} (t : State) (hadv : s.pcCanAdvance = true) (h : s.pcAligned = true) :
    (t.setPc (s.pc + 4#64)).pcAligned = true := by
  rw [State.pcAligned_iff] at h ⊢
  rw [State.setPc_pc, State.toNat_pc_add_four hadv]
  omega

/-- The consistency of the levels speaks of nothing but controls. -/
theorem State.SameControl.levelsConsistent_eq {s s' : State} (h : s.SameControl s') :
    s'.levelsConsistent = s.levelsConsistent := by
  rw [State.levelsConsistent, State.levelsConsistent, h.el, h.el2Enabled, h.levels]

/-- Settles O21: a completed step keeps memory and levels as they are, and advances an aligned program counter by four. -/
theorem everyStepKeepsTheInvariant : Obligations.EveryStepKeepsTheInvariant := by
  intro s s' hinv hstep
  have hsame : s.SameControl s' := step_sameControl hstep
  obtain ⟨-, -, hadv, t, rfl⟩ := step_next hstep
  exact {
    memory := by rw [hsame.mem]; exact hinv.memory
    aligned := State.pcAligned_setPc_add_four _ hadv hinv.aligned
    levels := by rw [hsame.levelsConsistent_eq]; exact hinv.levels }

/-- A read that completes after a run returns the register as it was at the run's start (20_memory.md R77; log 31). -/
theorem readX_of_exec_mrs_after_run {k : Nat} {t : RegNum} {s m e : State} (ht : t ≠ 31)
    (hrun : Sys2Proof.core.run k s = .next m) (hread : exec (.mrsIdAa64isar2El1 t) m = .next e) : e.readX t = s.isar2 := by
  obtain ⟨-, hkept⟩ := runsKeepRegisterAndProgramText k s m hrun
  rw [readX_of_exec_mrs_next ht hread, hkept]

/-- Settles O27: both reads return the register of the start of their run, which is the implementation's. -/
theorem everySuccessfulReadReturnsTheSameValue : Obligations.EverySuccessfulReadReturnsTheSameValue := by
  intro k₁ k₂ t₁ t₂ s₁ s₂ m₁ m₂ e₁ e₂ himpl ht₁ ht₂ hrun₁ hread₁ hrun₂ hread₂
  calc e₁.readX t₁ = s₁.isar2 := readX_of_exec_mrs_after_run ht₁ hrun₁ hread₁
    _ = s₂.isar2 := by rw [State.isar2, State.isar2, himpl]
    _ = e₂.readX t₂ := (readX_of_exec_mrs_after_run ht₂ hrun₂ hread₂).symm

/-- Writing what a register already holds changes nothing; of XZR, whose write is discarded, nothing is asked. -/
theorem State.writeX_of_readX {s : State} {t : RegNum} {v : Word} (h : t ≠ 31 → s.readX t = v) : s.writeX t v = s := by
  by_cases ht : t = 31
  · rw [ht, State.writeX_zr]
  · have hlt : t.val < 31 := Fin.val_lt_last ht
    rw [← h ht]
    simp [State.writeX, State.readX, hlt]

/-- Settles O12: after the first read `x[t]` holds the register, so the second one's write changes nothing. -/
theorem secondReadOnlyAdvances : Obligations.SecondReadOnlyAdvances := by
  intro t s s₁ s₂ hfirst hsecond
  have hkept : s₁.isar2 = s.isar2 := by
    obtain ⟨-, -, rfl⟩ := execMrsIdAa64isar2El1_next hfirst
    simp
  have hwrite : s₁.writeX t s₁.isar2 = s₁ :=
    State.writeX_of_readX fun ht => (readX_of_exec_mrs_next ht hfirst).trans hkept.symm
  obtain ⟨-, -, rfl⟩ := execMrsIdAa64isar2El1_next hsecond
  rw [hwrite]
  rfl

/-- The one populated location of the System register space (20_memory.md R71). -/
theorem State.readSysReg_eq_some_iff (s : State) (loc : SysRegLoc) (v : Word) :
    s.readSysReg loc = some v ↔ loc = SysRegLoc.isar2 ∧ v = s.isar2 := by
  rw [State.readSysReg, Option.ite_none_right_eq_some, Option.some.injEq, eq_comm (a := v)]

/-- Settles O32: the location of `State.readSysReg_eq_some_iff`, written out. -/
theorem oneSystemRegisterLocationIsPopulated : Obligations.OneSystemRegisterLocationIsPopulated :=
  State.readSysReg_eq_some_iff

end Sys2Proof.Machine
end

section
/-! Fetch and decode: what each makes of a step, and that they give back the instruction that was placed (20_memory.md R74, R75). -/

namespace Sys2Proof

/-- The encoder's word is read as its instruction, for each of the 32 destinations. -/
theorem decodeWord_encodeWord (i : Instr) : decodeWord (encodeWord i) = .ok i := by
  cases i with
  | mrsIdAa64isar2El1 t => revert t; decide

/-- Four bytes, the first the lowest, are the word they were taken from. -/
theorem wordOfBytes_of_word (w : BitVec 32) :
    wordOfBytes (w.extractLsb' 0 8) (w.extractLsb' 8 8) (w.extractLsb' 16 8) (w.extractLsb' 24 8) = w := by
  simp only [wordOfBytes, BitVec.extractLsb'_append_extractLsb'_eq_extractLsb']
  exact BitVec.extractLsb'_eq_self

theorem decode_encode (i : Instr) : decode (encode i) = .ok (i, []) := by
  simp only [encode, bytesOfWord, decode, wordOfBytes_of_word, decodeWord_encodeWord]

/-- A 32-bit word is the table word of its own number. -/
theorem tableWord_toNat (w : BitVec 32) : tableWord 32 w.toNat = w := by
  rw [tableWord, Nat.mod_eq_of_lt w.isLt, BitVec.ofNat_toNat, BitVec.setWidth_eq]

namespace Machine

/-- Four bytes placed at the program counter are the ones fetched, whatever stood there. -/
theorem State.fetch_place (s : State) (b0 b1 b2 b3 : Byte) :
    (s.place s.pc.toNat [b0, b1, b2, b3]).fetch = some [b0, b1, b2, b3] := by
  have placed (k : Nat) (hk : k < 4) := Memory.read_writeBytes_at s.mem s.pc.toNat k [b0, b1, b2, b3] hk
  exact State.fetch_some (placed 0 (by decide)) (placed 1 (by decide)) (placed 2 (by decide)) (placed 3 (by decide))

theorem State.fetch_withFetchWord (s : State) (i : Instr) :
    (s.withFetchWord 32 (encodeWord i).toNat).fetch = some (encode i) := by
  rw [State.withFetchWord, tableWord_toNat]
  exact s.fetch_place _ _ _ _

/-- One missing byte of the four is enough for the fetch to fail (log 10). -/
theorem State.fetch_none {s : State} {k : Nat} (hk : k < 4) (h : s.mem.read (s.pc.toNat + k) = none) : s.fetch = none := by
  unfold State.fetch
  split
  · next h0 h1 h2 h3 => interval_cases k <;> simp [h0, h1, h2, h3] at h
  · rfl

theorem step_of_misaligned {s : State} (h : s.pcAligned = false) : step s = .fault .pcAlignment := by
  simp [step, h]

theorem step_of_fetch_none {s : State} (ha : s.pcAligned = true) (hf : s.fetch = none) : step s = .fault .noInstruction := by
  simp [step, ha, hf]

theorem step_of_decode_error {s : State} {bytes : List Byte} {e : DecodeError} (ha : s.pcAligned = true)
    (hf : s.fetch = some bytes) (hd : decode bytes = .error e) : step s = .refused (.notAnInstruction e) := by
  simp [step, ha, hf, hd]

theorem step_of_decode_ok {s : State} {bytes rest : List Byte} {i : Instr} (ha : s.pcAligned = true)
    (hf : s.fetch = some bytes) (hd : decode bytes = .ok (i, rest)) : step s = exec i s := by
  simp [step, ha, hf, hd]

/-- Settles O20: the placed bytes are fetched, they decode to the instruction, and placing them leaves the alignment. -/
theorem placedInstructionIsTheOneThatRuns : Obligations.PlacedInstructionIsTheOneThatRuns := by
  intro i s ha
  have haligned : (s.withFetchWord 32 (encodeWord i).toNat).pcAligned = true := s.pcAligned_iff.mpr ha
  exact step_of_decode_ok haligned (s.fetch_withFetchWord i) (decode_encode i)

/-- Settles O18: four placed bytes are fetched, and what they decode to is executed. -/
theorem stepRunsTheDecodedInstruction : Obligations.StepRunsTheDecodedInstruction := by
  intro s b0 b1 b2 b3 i rest ha h0 h1 h2 h3 hd
  exact step_of_decode_ok (s.pcAligned_iff.mpr ha) (State.fetch_some h0 h1 h2 h3) hd

/-- Settles O19: the three branches of a step that run no instruction, in the order in which it tests for them. -/
theorem stepStopsBeforeExecutionByName : Obligations.StepStopsBeforeExecutionByName := by
  refine ⟨fun s hmis => ?misaligned, fun s k ha hk hmissing => ?missing, fun s b0 b1 b2 b3 e ha h0 h1 h2 h3 hd => ?undecodable⟩
  case misaligned => exact step_of_misaligned (Bool.eq_false_iff.mpr fun ha => hmis (s.pcAligned_iff.mp ha))
  case missing => exact step_of_fetch_none (s.pcAligned_iff.mpr ha) (State.fetch_none hk hmissing)
  case undecodable => exact step_of_decode_error (s.pcAligned_iff.mpr ha) (State.fetch_some h0 h1 h2 h3) hd

end Machine

end Sys2Proof
end

section
/-! The instruction word as its fields, and the decoder and the encoder as inverses of each other (30_encoding.md R91 to R95; log 13). -/

namespace Sys2Proof

/-! ## The word and its fields -/

/-- The word of the nine fields of 30_encoding.md R91, the highest first: `wordOpcode`, `wordIsRead`, `wordIsRegister`, `wordLoc` and `wordRt`
read them back. -/
def wordOfFields (opcode : BitVec 10) (l reg o0 : BitVec 1) (op1 : BitVec 3) (crn crm : BitVec 4) (op2 : BitVec 3)
    (rt : BitVec 5) : BitVec 32 :=
  opcode ++ l ++ reg ++ o0 ++ op1 ++ crn ++ crm ++ op2 ++ rt

section
variable (opcode : BitVec 10) (l reg o0 : BitVec 1) (op1 : BitVec 3) (crn crm : BitVec 4) (op2 : BitVec 3) (rt : BitVec 5)

@[simp] theorem wordOpcode_wordOfFields : wordOpcode (wordOfFields opcode l reg o0 op1 crn crm op2 rt) = opcode := by
  simp (disch := decide) only [wordOpcode, wordOfFields, BitVec.extractLsb'_append_eq_of_le, Nat.reduceSub,
    BitVec.extractLsb'_eq_self]

@[simp] theorem wordIsRead_wordOfFields : wordIsRead (wordOfFields opcode l reg o0 op1 crn crm op2 rt) = (l == 1#1) := by
  simp (disch := decide) only [wordIsRead, BitVec.getLsbD_eq_extractLsb', wordOfFields, BitVec.extractLsb'_append_eq_of_le,
    Nat.reduceSub, BitVec.extractLsb'_append_eq_right]

@[simp] theorem wordIsRegister_wordOfFields :
    wordIsRegister (wordOfFields opcode l reg o0 op1 crn crm op2 rt) = (reg == 1#1) := by
  simp (disch := decide) only [wordIsRegister, BitVec.getLsbD_eq_extractLsb', wordOfFields,
    BitVec.extractLsb'_append_eq_of_le, Nat.reduceSub, BitVec.extractLsb'_append_eq_right]

@[simp] theorem wordLoc_wordOfFields :
    wordLoc (wordOfFields opcode l reg o0 op1 crn crm op2 rt) = ⟨1#1 ++ o0, op1, crn, crm, op2⟩ := by
  simp (disch := decide) only [wordLoc, wordOfFields, BitVec.extractLsb'_append_eq_of_le, Nat.reduceSub,
    BitVec.extractLsb'_append_eq_right]

@[simp] theorem wordRt_wordOfFields : wordRt (wordOfFields opcode l reg o0 op1 crn crm op2 rt) = rt.toFin := by
  simp only [wordRt, wordOfFields, BitVec.extractLsb'_append_eq_right]

end

/-- One bit of a word, as the decoder tests it, is the field of width one at its place. -/
theorem ofBool_getLsbD (w : BitVec 32) (i : Nat) : BitVec.ofBool (w.getLsbD i) = w.extractLsb' i 1 := by
  ext j hj
  obtain rfl : j = 0 := Nat.lt_one_iff.mp hj
  simp

/-- Every word is the word of the fields the decoder reads in it; of op0 the word holds the lower bit alone. -/
theorem wordOfFields_of_word (w : BitVec 32) :
    wordOfFields (wordOpcode w) (BitVec.ofBool (wordIsRead w)) (BitVec.ofBool (wordIsRegister w))
      ((wordLoc w).op0.extractLsb' 0 1) (wordLoc w).op1 (wordLoc w).crn (wordLoc w).crm (wordLoc w).op2
      (BitVec.ofFin (wordRt w)) = w := by
  have ho0 : (wordLoc w).op0.extractLsb' 0 1 = w.extractLsb' 19 1 := BitVec.extractLsb'_append_eq_right
  rw [ho0, wordIsRead, wordIsRegister, ofBool_getLsbD, ofBool_getLsbD]
  simp only [wordOfFields, wordOpcode, wordLoc, wordRt, BitVec.ofFin_toFin,
    BitVec.extractLsb'_append_extractLsb'_eq_extractLsb']
  exact BitVec.extractLsb'_eq_self

/-! ## Every System register move -/

section
variable (o0 : BitVec 1) (op1 : BitVec 3) (crn crm : BitVec 4) (op2 : BitVec 3) (rt : BitVec 5)

/-- What an MRS is decoded to (30_encoding.md R91, R95; log 35). -/
theorem decodeWord_read :
    decodeWord (wordOfFields 0b1101010100#10 1#1 1#1 o0 op1 crn crm op2 rt) =
      if (⟨1#1 ++ o0, op1, crn, crm, op2⟩ : SysRegLoc) = SysRegLoc.isar2 then .ok (.mrsIdAa64isar2El1 rt.toFin)
      else .error (.otherRegisterRead ⟨1#1 ++ o0, op1, crn, crm, op2⟩) := by
  simp [decodeWord]

/-- What an MSR is refused as (30_encoding.md R91, R95; log 35). -/
theorem decodeWord_write :
    decodeWord (wordOfFields 0b1101010100#10 0#1 1#1 o0 op1 crn crm op2 rt) =
      if (⟨1#1 ++ o0, op1, crn, crm, op2⟩ : SysRegLoc) = SysRegLoc.isar2 then .error .writeAccessor
      else .error (.otherRegisterWrite ⟨1#1 ++ o0, op1, crn, crm, op2⟩) := by
  simp [decodeWord]

end

/-- Settles O30: the bit L makes the word a read or a write, and its location decides the rest. -/
theorem everySystemRegisterMoveIsClassified : Obligations.EverySystemRegisterMoveIsClassified := by
  intro l o0 op1 crn crm op2 rt
  obtain rfl | rfl := BitVec.eq_zero_or_eq_one l
  · exact decodeWord_write o0 op1 crn crm op2 rt
  · exact decodeWord_read o0 op1 crn crm op2 rt

/-! ## The decoder against the encoder -/

/-- What a word holds that decodes to an instruction: the opcode, the two fixed bits, the register's location and the operand
(30_encoding.md R91). -/
theorem decodeWord_ok {w : BitVec 32} {i : Instr} (h : decodeWord w = .ok i) :
    wordOpcode w = 0b1101010100#10 ∧ wordIsRegister w = true ∧ wordIsRead w = true ∧ wordLoc w = SysRegLoc.isar2
      ∧ i = .mrsIdAa64isar2El1 (wordRt w) := by
  unfold decodeWord at h
  split at h
  · next hmove =>
    obtain ⟨hop, hreg⟩ := hmove
    split at h <;> split at h <;> cases h
    next hread hloc => exact ⟨hop, hreg, hread, hloc, rfl⟩
  · cases h

/-- The encoder's word is the only one that decodes to its instruction. -/
theorem decodeWord_eq_ok_iff (w : BitVec 32) (i : Instr) : decodeWord w = .ok i ↔ w = encodeWord i := by
  constructor
  · intro h
    obtain ⟨hop, hreg, hread, hloc, rfl⟩ := decodeWord_ok h
    have hfields := wordOfFields_of_word w
    rw [hop, hread, hreg, hloc] at hfields
    exact hfields.symm
  · rintro rfl
    exact decodeWord_encodeWord i

/-- The bytes of the word of four bytes are those four. -/
theorem bytesOfWord_wordOfBytes (b0 b1 b2 b3 : Byte) : bytesOfWord (wordOfBytes b0 b1 b2 b3) = [b0, b1, b2, b3] := by
  simp (disch := decide) only [bytesOfWord, wordOfBytes, BitVec.extractLsb'_append_eq_of_le, Nat.reduceSub,
    BitVec.extractLsb'_append_eq_right, BitVec.extractLsb'_eq_self]

/-- Bytes that decode are four of a word that decodes, and the rest (30_encoding.md R92). -/
theorem decode_ok {bytes rest : List Byte} {i : Instr} (h : decode bytes = .ok (i, rest)) :
    ∃ w, bytes = bytesOfWord w ++ rest ∧ decodeWord w = .ok i := by
  unfold decode at h
  split at h
  · next b0 b1 b2 b3 tail =>
    split at h <;> cases h
    next hw => exact ⟨wordOfBytes b0 b1 b2 b3, by rw [bytesOfWord_wordOfBytes]; rfl, hw⟩
  · cases h

/-- The decoder reads an instruction's bytes and leaves what follows them. -/
theorem decode_encode_append (i : Instr) (rest : List Byte) : decode (encode i ++ rest) = .ok (i, rest) := by
  simp only [encode, bytesOfWord, List.cons_append, List.nil_append, decode, wordOfBytes_of_word, decodeWord_encodeWord]

/-- Settles O28: the first four bytes are a word, and the encoder's word is the only one that decodes to the instruction. -/
theorem decodeAndEncodeAgree : Obligations.DecodeAndEncodeAgree := by
  intro bytes rest i
  constructor
  · intro h
    obtain ⟨w, rfl, hw⟩ := decode_ok h
    rw [encode, (decodeWord_eq_ok_iff w i).mp hw]
  · rintro rfl
    exact decode_encode_append i rest

/-! ## The row of the opcode table -/

/-- A word is its bits under the row's mask together with its low five bits. -/
theorem eq_of_and_mask_eq_of_mod_eq {w w' : BitVec 32} (hmask : w &&& 0xFFFFFFE0#32 = w' &&& 0xFFFFFFE0#32)
    (hlow : w.toNat % 32 = w'.toNat % 32) : w = w' := by
  have hsplit (v : BitVec 32) : v = v &&& 0xFFFFFFE0#32 ||| v &&& 31#32 := by
    rw [← BitVec.and_or_distrib_left]
    exact BitVec.and_allOnes.symm
  have hmod (v : BitVec 32) : (v &&& 31#32).toNat = v.toNat % 32 := by
    rw [BitVec.toNat_and]
    exact Nat.and_two_pow_sub_one_eq_mod v.toNat 5
  have hrt : w &&& 31#32 = w' &&& 31#32 := BitVec.eq_of_toNat_eq (by rw [hmod, hmod, hlow])
  rw [hsplit w, hsplit w', hmask, hrt]

/-- Settles O29: the encoder's word fills the row, and no other word has its bits under the mask and its operand. -/
theorem decoderAdmitsExactlyTheTableRow : Obligations.DecoderAdmitsExactlyTheTableRow := by
  intro w t
  obtain ⟨hmatch, hrt⟩ := Laws.FillsItsTableRow.mrsIdAa64isar2El1 t
  rw [decodeWord_eq_ok_iff]
  constructor
  · rintro rfl
    exact ⟨hmatch, hrt.symm⟩
  · rintro ⟨hmask, hlow⟩
    exact eq_of_and_mask_eq_of_mod_eq (hmask.trans hmatch.symm) (hlow.symm.trans hrt.symm)

end Sys2Proof
end

section
/-! What the accessor answers at each Exception level (40_mrs_access.md R111 to R113), and what that answer cannot depend on. -/

namespace Sys2Proof.Machine

/-- Settles O1: the EL0 arm of the decision tree, its routing as the two bits it tests. -/
theorem el0NeverReadsTheRegister : Obligations.El0NeverReadsTheRegister := by
  intro t s hel
  simp only [exec, execMrsIdAa64isar2El1, hel, State.tgeRoutes_iff, raise_eq, raiseSystemAccessTrap_eq]

/-- The EL1 arm where all three terms hold. -/
theorem exec_mrs_el1_trap {s : State} (t : RegNum) (hel : s.el = .el1) (htrap : s.tid3Traps = true) :
    exec (.mrsIdAa64isar2El1 t) s = .fault (.systemAccessTrap .el2 0x18) := by
  simp [exec, execMrsIdAa64isar2El1, hel, htrap]

/-- The EL1 condition of `State.mayRead` is the negation of the trap's. -/
theorem State.mayRead_of_el1 {s : State} (hel : s.el = .el1) (hnot : s.tid3Traps = false) : s.mayRead :=
  .inr (.inr ⟨hel, fun hterms => by simp [s.tid3Traps_iff.mpr hterms] at hnot⟩)

/-- The read arm, with the refusal at the top of the address space (10_state.md R54; log 16). -/
theorem exec_mrs_read {s : State} (t : RegNum) (hread : s.mayRead) :
    exec (.mrsIdAa64isar2El1 t) s =
      if s.pcCanAdvance then .next ((s.writeX t s.isar2).setPc (s.pc + 4#64)) else .refused .pcWrap := by
  cases hadv : s.pcCanAdvance with
  | true => exact exec_mrs_of_mayRead t hread (s.pcCanAdvance_iff.mp hadv)
  | false => exact exec_mrs_refused_of_mayRead t hread hadv

theorem exec_mrs_ne_fault_of_mayRead {s : State} (t : RegNum) (hread : s.mayRead) (f : Fault) :
    exec (.mrsIdAa64isar2El1 t) s ≠ .fault f := by
  rw [exec_mrs_read t hread]
  split <;> simp

/-- A read as R112 and R113 speak of it: no fault, and where the program counter can advance, the register in `x[t]`. -/
theorem exec_mrs_reads_of_mayRead {s : State} (t : RegNum) (hread : s.mayRead) :
    (∀ f, exec (.mrsIdAa64isar2El1 t) s ≠ .fault f)
    ∧ (s.pc.toNat + 4 < 2 ^ 64 →
        ∃ s', exec (.mrsIdAa64isar2El1 t) s = .next s' ∧ (t ≠ 31 → s'.readX t = s.isar2)) := by
  refine ⟨exec_mrs_ne_fault_of_mayRead t hread, fun hpc => ?_⟩
  have hnext := exec_mrs_of_mayRead t hread hpc
  exact ⟨_, hnext, fun ht => readX_of_exec_mrs_next ht hnext⟩

/-- Settles O2: the three terms are the trap's condition, and their negation is what lets EL1 read. -/
theorem el1ReadsUnlessTheThreeTermsHold : Obligations.El1ReadsUnlessTheThreeTermsHold := by
  intro t s hel
  exact ⟨fun hterms => exec_mrs_el1_trap t hel (s.tid3Traps_iff.mpr hterms),
    fun hnot => exec_mrs_reads_of_mayRead t (.inr (.inr ⟨hel, hnot⟩))⟩

/-- Settles O3: EL2 and EL3 may read whatever else the state holds. -/
theorem el2AndEl3AlwaysRead : Obligations.El2AndEl3AlwaysRead := by
  intro t s hel
  exact exec_mrs_reads_of_mayRead t (hel.imp_right .inl)

/-- Where the level may not read, the answer is an exception, which does not name the destination (40_mrs_access.md R116). -/
theorem exec_mrs_eq_of_not_mayRead {s : State} (t u : RegNum) (hnot : ¬ s.mayRead) :
    exec (.mrsIdAa64isar2El1 t) s = exec (.mrsIdAa64isar2El1 u) s := by
  cases hel : s.el with
  | el0 => rw [el0NeverReadsTheRegister t s hel, el0NeverReadsTheRegister u s hel]
  | el1 =>
    have htrap : s.tid3Traps = true :=
      Bool.eq_true_of_not_eq_false fun hfree => hnot (State.mayRead_of_el1 hel hfree)
    rw [exec_mrs_el1_trap t hel htrap, exec_mrs_el1_trap u hel htrap]
  | el2 => exact absurd (.inl hel) hnot
  | el3 => exact absurd (.inr (.inl hel)) hnot

/-- Settles O7: a read stops only by the refusal, which tests the program counter; anything else is the same for both destinations. -/
theorem destinationHasNoPartInStops : Obligations.DestinationHasNoPartInStops := by
  intro t u s
  by_cases hread : s.mayRead
  · rw [exec_mrs_read t hread, exec_mrs_read u hread]
    cases s.pcCanAdvance <;> simp
  · rw [exec_mrs_eq_of_not_mayRead t u hread]
    exact ⟨fun _ => .rfl, fun _ => .rfl⟩

/-- Settles O14: the EL0 answer is written in FEAT_IDST and the routing alone. -/
theorem el0OutcomeDependsOnlyOnIdstAndRouting : Obligations.El0OutcomeDependsOnlyOnIdstAndRouting := by
  intro t u s₁ s₂ hel₁ hel₂ hidst hroute
  rw [el0NeverReadsTheRegister t s₁ hel₁, el0NeverReadsTheRegister u s₂ hel₂]
  simp only [hidst, hroute]

/-- The one fault of EL1 (40_mrs_access.md R112). -/
theorem exec_mrs_fault_iff_of_el1 {s : State} (t : RegNum) (hel : s.el = .el1) (f : Fault) :
    exec (.mrsIdAa64isar2El1 t) s = .fault f ↔ s.tid3Traps = true ∧ f = .systemAccessTrap .el2 0x18 := by
  cases htrap : s.tid3Traps with
  | true => simp [exec_mrs_el1_trap t hel htrap, eq_comm]
  | false => simp [exec_mrs_ne_fault_of_mayRead t (State.mayRead_of_el1 hel htrap) f]

/-- Settles O15: the one fault of EL1 is raised under the three terms, on whose inputs the states agree. -/
theorem el1TrapDependsOnlyOnTheThreeTerms : Obligations.El1TrapDependsOnlyOnTheThreeTerms := by
  intro t u s₁ s₂ hel₁ hel₂ hen htid3 hfgt hzero himp f
  have hterms : s₁.tid3Traps = true ↔ s₂.tid3Traps = true := by
    simp only [State.tid3Traps_iff, ne_eq, hen, htid3, hfgt, hzero, himp]
  rw [exec_mrs_fault_iff_of_el1 t hel₁, exec_mrs_fault_iff_of_el1 u hel₂, hterms]

end Sys2Proof.Machine
end

section
/-! The completed read: its result, its advance and its frame (40_mrs_access.md R110, R115, R116). -/

namespace Sys2Proof.Machine

/-- The state after a read holds every other register as before. -/
theorem State.readX_writeX_setPc_ne (s : State) {t j : RegNum} (v p : Word) (hj : j ≠ t) :
    ((s.writeX t v).setPc p).readX j = s.readX j := by
  rw [State.setPc_readX, State.readX_writeX_ne _ _ _ _ hj]

/-- The same data in memory is the same byte at every address. -/
theorem State.SameControl.mem_read_eq {s s' : State} (h : s.SameControl s') (a : Nat) : s'.mem.read a = s.mem.read a := by
  rw [h.mem]

theorem State.el_ne_el0_of_mayRead {s : State} (hread : s.mayRead) : s.el ≠ .el0 := by
  intro hel
  simp [State.mayRead, hel] at hread

/-- Settles O4: the next state is `x[t] <- ISAR2; pc <- pc + 4`, of which each clause is one law. -/
theorem mrsCompletesWithItsWholeEffect : Obligations.MrsCompletesWithItsWholeEffect := by
  intro t s hread hpc
  have hsame := s.sameControl_writeX_setPc t s.isar2 (s.pc + 4#64)
  exact ⟨_, exec_mrs_of_mayRead t hread hpc, s.readX_writeX_self t _, State.toNat_pc_add_four (s.pcCanAdvance_iff.mpr hpc),
    fun j hj => s.readX_writeX_setPc_ne _ _ hj, hsame, hsame.mem_read_eq⟩

/-- Settles O5: every next state is that of a read. -/
theorem mrsFrameOfEveryNextState : Obligations.MrsFrameOfEveryNextState := by
  intro t s s' h
  obtain ⟨hread, -, rfl⟩ := execMrsIdAa64isar2El1_next h
  have hsame := s.sameControl_writeX_setPc t s.isar2 (s.pc + 4#64)
  exact ⟨hread, fun j hj => s.readX_writeX_setPc_ne _ _ hj, hsame, hsame.isar2_eq, hsame.mem_read_eq⟩

/-- Settles O6: the write to XZR is discarded, which leaves the advance. -/
theorem zeroRegisterDestinationOnlyAdvances : Obligations.ZeroRegisterDestinationOnlyAdvances := by
  intro s hread hpc
  rw [exec_mrs_of_mayRead 31 hread hpc, State.writeX_zr]
  rfl

/-- Settles O23: a completed step is a completed read of some destination. -/
theorem completedStepChangesOneRegisterAndPc : Obligations.CompletedStepChangesOneRegisterAndPc := by
  intro s s' h
  have hsame := step_sameControl h
  obtain ⟨-, hread, hadv, t, rfl⟩ := step_next h
  exact ⟨State.el_ne_el0_of_mayRead hread, State.toNat_pc_add_four hadv, hsame,
    t, s.readX_writeX_same t _, fun j hj => s.readX_writeX_setPc_ne _ _ hj⟩

end Sys2Proof.Machine
end

section
/-! The HCR_EL2 bits while EL2 is not enabled (40_mrs_access.md R116, 10_state.md R52). -/

namespace Sys2Proof.Machine

section
variable (s : State) (tge tid3 : Bool)

@[simp] theorem State.setControls_pc : (s.setControls tge tid3).pc = s.pc := rfl
@[simp] theorem State.setControls_el : (s.setControls tge tid3).el = s.el := rfl
@[simp] theorem State.setControls_el2Enabled : (s.setControls tge tid3).el2Enabled = s.el2Enabled := rfl
@[simp] theorem State.setControls_impl : (s.setControls tge tid3).impl = s.impl := rfl
@[simp] theorem State.setControls_isar2 : (s.setControls tge tid3).isar2 = s.isar2 := rfl
@[simp] theorem State.setControls_pcCanAdvance : (s.setControls tge tid3).pcCanAdvance = s.pcCanAdvance := rfl

/-- Registers and HCR_EL2 are separate state. -/
theorem State.setControls_writeX (t : RegNum) (v : Word) :
    (s.setControls tge tid3).writeX t v = (s.writeX t v).setControls tge tid3 := by
  unfold State.writeX
  split <;> rfl

theorem State.setControls_setPc (p : Word) : (s.setControls tge tid3).setPc p = (s.setPc p).setControls tge tid3 := rfl

end

/-- Without EL2 enabled the EL1 read is not trapped, so every level but EL0 may read. -/
theorem State.mayRead_of_el2_disabled {s : State} (hoff : s.el2Enabled = false) (hel : s.el ≠ .el0) : s.mayRead := by
  cases hlevel : s.el with
  | el0 => exact absurd hlevel hel
  | el1 => exact State.mayRead_of_el1 hlevel (by simp [State.tid3Traps, hoff])
  | el2 => exact .inl hlevel
  | el3 => exact .inr (.inl hlevel)

/-- Settles O16: at EL0 the answer is the same exception; at the other levels both states may read, and the read passes the bits on. -/
theorem controlsUnreadWhileEl2Disabled : Obligations.ControlsUnreadWhileEl2Disabled := by
  intro i s tge tid3 hoff
  cases i with
  | mrsIdAa64isar2El1 t =>
    by_cases hel : s.el = .el0
    · rw [el0NeverReadsTheRegister t s hel, el0NeverReadsTheRegister t (s.setControls tge tid3) hel]
      cases hidst : s.impl.params.haveIDST <;> simp [hoff, hidst, mapNext]
    · have hread : s.mayRead := State.mayRead_of_el2_disabled hoff hel
      have hread' : (s.setControls tge tid3).mayRead := State.mayRead_of_el2_disabled hoff hel
      rw [exec_mrs_read t hread, exec_mrs_read t hread', State.setControls_writeX, State.setControls_setPc]
      cases hadv : s.pcCanAdvance <;> simp [hadv, mapNext]

end Sys2Proof.Machine
end

section
/-! The twelve rows of the decision table (40_mrs_access.md R114): one of them answers for every state, and no two can match together. -/

namespace Sys2Proof.Machine

/-- Two columns that some value fits both. -/
def columnsCompatible : Option Bool → Option Bool → Bool
  | some b, some c => b == c
  | none, _ => true
  | some _, none => true

theorem columnsCompatible_of_fits {c c' : Option Bool} {v : Bool} (h : fits c v = true) (h' : fits c' v = true) :
    columnsCompatible c c' = true := by
  cases c with
  | none => rfl
  | some b =>
    cases c' with
    | none => rfl
    | some b' =>
      simp only [fits, beq_iff_eq] at h h'
      simp [columnsCompatible, h, h']

/-- Two rows that agree on the level and in every column that both consult. -/
def AccessRow.compatible (r r' : AccessRow) : Bool :=
  r.el == r'.el && columnsCompatible r.haveIDST r'.haveIDST && columnsCompatible r.el2Enabled r'.el2Enabled
  && columnsCompatible r.tge r'.tge && columnsCompatible r.haveFGT r'.haveFGT && columnsCompatible r.zero r'.zero
  && columnsCompatible r.imp r'.imp && columnsCompatible r.tid3 r'.tid3

theorem AccessRow.compatible_of_matches {r r' : AccessRow} {s : State} (h : r.matches s = true) (h' : r'.matches s = true) :
    r.compatible r' = true := by
  simp only [AccessRow.matches, Bool.and_eq_true, beq_iff_eq] at h h'
  obtain ⟨⟨⟨⟨⟨⟨⟨hel, hidst⟩, hen⟩, htge⟩, hfgt⟩, hzero⟩, himp⟩, htid3⟩ := h
  obtain ⟨⟨⟨⟨⟨⟨⟨hel', hidst'⟩, hen'⟩, htge'⟩, hfgt'⟩, hzero'⟩, himp'⟩, htid3'⟩ := h'
  simp [AccessRow.compatible, hel, hel', columnsCompatible_of_fits hidst hidst', columnsCompatible_of_fits hen hen',
    columnsCompatible_of_fits htge htge', columnsCompatible_of_fits hfgt hfgt', columnsCompatible_of_fits hzero hzero',
    columnsCompatible_of_fits himp himp', columnsCompatible_of_fits htid3 htid3']

/-- The rows are mutually exclusive: any two differ in the level or in a column that both consult. -/
theorem eq_of_compatible_of_mem_accessTable :
    ∀ r ∈ accessTable, ∀ r' ∈ accessTable, r.compatible r' = true → r' = r := by decide

/-- Rows 1 to 4: FEAT_IDST, then the routing. -/
theorem exists_row_of_el0 {s : State} (t : RegNum) (hel : s.el = .el0) :
    ∃ r ∈ accessTable, r.matches s = true ∧ exec (.mrsIdAa64isar2El1 t) s = r.gives t s := by
  have hexec := el0NeverReadsTheRegister t s hel
  cases hidst : s.impl.params.haveIDST with
  | false =>
    rw [hidst] at hexec
    exact ⟨accessTable[0], List.getElem_mem _, by simp [accessTable, AccessRow.matches, fits, hel, hidst], hexec⟩
  | true =>
    cases hen : s.el2Enabled with
    | false =>
      rw [hidst, hen] at hexec
      exact ⟨accessTable[1], List.getElem_mem _, by simp [accessTable, AccessRow.matches, fits, hel, hidst, hen], hexec⟩
    | true =>
      cases htge : s.hcrEl2Tge with
      | false =>
        rw [hidst, hen, htge] at hexec
        exact ⟨accessTable[2], List.getElem_mem _, by simp [accessTable, AccessRow.matches, fits, hel, hidst, hen, htge], hexec⟩
      | true =>
        rw [hidst, hen, htge] at hexec
        exact ⟨accessTable[3], List.getElem_mem _, by simp [accessTable, AccessRow.matches, fits, hel, hidst, hen, htge], hexec⟩

/-- Rows 7 to 10, where both controls are set: whether the trap applies to this register. -/
theorem exists_row_of_el1_of_controls {s : State} (t : RegNum) (hel : s.el = .el1) (hen : s.el2Enabled = true)
    (htid3 : s.hcrEl2Tid3 = true) :
    ∃ r ∈ accessTable, r.matches s = true ∧ exec (.mrsIdAa64isar2El1 t) s = r.gives t s := by
  cases hfgt : s.impl.params.haveFGT with
  | true =>
    exact ⟨accessTable[6], List.getElem_mem _, by simp [accessTable, AccessRow.matches, fits, hel, hen, htid3, hfgt],
      exec_mrs_el1_trap t hel (by simp [State.tid3Traps, hen, htid3, hfgt])⟩
  | false =>
    cases hzero : Isar2.isZero s.isar2 with
    | false =>
      exact ⟨accessTable[7], List.getElem_mem _,
        by simp [accessTable, AccessRow.matches, fits, hel, hen, htid3, hfgt, hzero],
        exec_mrs_el1_trap t hel (by simp [State.tid3Traps, hen, htid3, hzero])⟩
    | true =>
      cases himp : s.impl.params.impDefTid3TrapsZeroReg with
      | true =>
        exact ⟨accessTable[8], List.getElem_mem _,
          by simp [accessTable, AccessRow.matches, fits, hel, hen, htid3, hfgt, hzero, himp],
          exec_mrs_el1_trap t hel (by simp [State.tid3Traps, hen, htid3, himp])⟩
      | false =>
        exact ⟨accessTable[9], List.getElem_mem _,
          by simp [accessTable, AccessRow.matches, fits, hel, hen, htid3, hfgt, hzero, himp],
          exec_mrs_read t (State.mayRead_of_el1 hel (by simp [State.tid3Traps, hfgt, hzero, himp]))⟩

/-- Rows 5 to 10: the two controls first, since an unset one ends the test. -/
theorem exists_row_of_el1 {s : State} (t : RegNum) (hel : s.el = .el1) :
    ∃ r ∈ accessTable, r.matches s = true ∧ exec (.mrsIdAa64isar2El1 t) s = r.gives t s := by
  cases hen : s.el2Enabled with
  | false =>
    exact ⟨accessTable[4], List.getElem_mem _, by simp [accessTable, AccessRow.matches, fits, hel, hen],
      exec_mrs_read t (State.mayRead_of_el1 hel (by simp [State.tid3Traps, hen]))⟩
  | true =>
    cases htid3 : s.hcrEl2Tid3 with
    | false =>
      exact ⟨accessTable[5], List.getElem_mem _, by simp [accessTable, AccessRow.matches, fits, hel, hen, htid3],
        exec_mrs_read t (State.mayRead_of_el1 hel (by simp [State.tid3Traps, htid3]))⟩
    | true => exact exists_row_of_el1_of_controls t hel hen htid3

/-- The rows are exhaustive, and one that applies says what the machine does. -/
theorem exists_row (t : RegNum) (s : State) :
    ∃ r ∈ accessTable, r.matches s = true ∧ exec (.mrsIdAa64isar2El1 t) s = r.gives t s := by
  cases hel : s.el with
  | el0 => exact exists_row_of_el0 t hel
  | el1 => exact exists_row_of_el1 t hel
  | el2 =>
    exact ⟨accessTable[10], List.getElem_mem _, by simp [accessTable, AccessRow.matches, fits, hel],
      exec_mrs_read t (.inl hel)⟩
  | el3 =>
    exact ⟨accessTable[11], List.getElem_mem _, by simp [accessTable, AccessRow.matches, fits, hel],
      exec_mrs_read t (.inr (.inl hel))⟩

/-- Settles O8: the row that `exists_row` finds is the only one, since rows that match together are compatible. -/
theorem decisionTableIsExactAndExclusive : Obligations.DecisionTableIsExactAndExclusive := by
  intro t s
  obtain ⟨r, hmem, hmatch, hexec⟩ := exists_row t s
  exact ⟨r, hmem, hmatch, fun r' hmem' hmatch' =>
    eq_of_compatible_of_mem_accessTable r hmem r' hmem' (AccessRow.compatible_of_matches hmatch hmatch'), hexec⟩

end Sys2Proof.Machine
end

section
/-! What the register's value says (41_feature_predicates.md): the fields as integers, and legality as the written clauses (R130, R146, R147). -/

namespace Sys2Proof.Isar2

/-- Settles O34: each field is a range of bits, and such a range as a number is shift and remainder. -/
theorem fieldsAsIntegers : Obligations.FieldsAsIntegers := by
  intro v
  have range (lo len : Nat) : (v.extractLsb' lo len).toNat = v.toNat >>> lo % 2 ^ len := BitVec.extractLsb'_toNat lo len v
  exact ⟨range 56 8, range 52 4, range 48 4, range 44 4, range 40 4, range 36 4, range 32 4, range 28 4, range 24 4, range 20 4,
    range 16 4, range 12 4, range 8 4, range 4 4, range 0 4⟩

/-- Clauses W3 to W15. -/
theorem definedValues_iff (v : Word) : definedValues v = true ↔
    cssc v ∈ [0b0000#4, 0b0001#4] ∧ rprfm v ∈ [0b0000#4, 0b0001#4] ∧ prfmslc v ∈ [0b0000#4, 0b0001#4]
    ∧ sysinstr128 v ∈ [0b0000#4, 0b0001#4] ∧ sysreg128 v ∈ [0b0000#4, 0b0001#4] ∧ clrbhb v ∈ [0b0000#4, 0b0001#4]
    ∧ pacFrac v ∈ [0b0000#4, 0b0001#4] ∧ bc v ∈ [0b0000#4, 0b0001#4] ∧ mops v ∈ [0b0000#4, 0b0001#4]
    ∧ apa3 v ∈ [0b0000#4, 0b0001#4, 0b0010#4, 0b0011#4, 0b0100#4, 0b0101#4] ∧ gpa3 v ∈ [0b0000#4, 0b0001#4]
    ∧ rpres v ∈ [0b0000#4, 0b0001#4] ∧ wfxt v ∈ [0b0000#4, 0b0010#4] := by
  simp only [definedValues, Bool.and_eq_true, Bool.or_eq_true, twoValued_iff, decide_eq_true_eq, apa3Defined_iff, beq_iff_eq,
    and_assoc, List.mem_cons, List.not_mem_nil, or_false]

/-- Clauses W16 to W21. -/
theorem versionPermits_iff (v : Word) (arch : Arch) (api apa : Nibble) : versionPermits v arch api apa = true ↔
    (arch.ge_v9_4 = true → cssc v = 0b0001#4) ∧ (arch.ge_v8_9 = true → clrbhb v = 0b0001#4)
    ∧ (arch.ge_v8_8 = true → bc v = 0b0001#4) ∧ (arch.ge_v8_8 = true → mops v = 0b0001#4)
    ∧ (arch.ge_v8_7 = true → wfxt v = 0b0010#4)
    ∧ (arch.ge_v8_6 = true ∧ api = 0#4 ∧ apa = 0#4 → apa3 v ∈ [0b0011#4, 0b0100#4, 0b0101#4]) := by
  simp only [versionPermits, Bool.and_eq_true, Bool.or_eq_true, implies_iff, beq_iff_eq, and_assoc, or_assoc, List.mem_cons,
    List.not_mem_nil, or_false]

/-- Clauses W22 and W23. -/
theorem crossRegister_iff (v : Word) (api apa gpi gpa : Nibble) : crossRegister v api apa gpi gpa = true ↔
    (api ≠ 0#4 ∨ apa ≠ 0#4 → apa3 v = 0b0000#4) ∧ (gpi ≠ 0#4 ∨ gpa ≠ 0#4 → gpa3 v = 0b0000#4) := by
  simp only [crossRegister, Bool.and_eq_true, Bool.or_eq_true, implies_iff, beq_iff_eq, bne_iff_ne]

/-- The four groups of the legality predicate. -/
theorem wfIsar2_iff (v : Word) (arch : Arch) (api apa gpi gpa : Nibble) : wfIsar2 v arch api apa gpi gpa = true ↔
    reservedBitsZero v = true ∧ definedValues v = true ∧ versionPermits v arch api apa = true
    ∧ crossRegister v api apa gpi gpa = true := by
  simp only [wfIsar2, Bool.and_eq_true, and_assoc]

theorem wfIsar2_of_clauses {v : Word} {arch : Arch} {api apa gpi gpa : Nibble} (h : Clauses v arch api apa gpi gpa) :
    wfIsar2 v arch api apa gpi gpa = true :=
  (wfIsar2_iff v arch api apa gpi gpa).mpr
    ⟨(reservedBitsZero_iff v).mpr ⟨h.w1, h.w2⟩,
     (definedValues_iff v).mpr ⟨h.w3, h.w4, h.w5, h.w6, h.w7, h.w8, h.w9, h.w10, h.w11, h.w12, h.w13, h.w14, h.w15⟩,
     (versionPermits_iff v arch api apa).mpr ⟨h.w16, h.w17, h.w18, h.w19, h.w20, h.w21⟩,
     (crossRegister_iff v api apa gpi gpa).mpr ⟨h.w22, h.w23⟩⟩

/-- Settles O35: the two directions. -/
theorem legalityIsTheTwentyThreeClauses : Obligations.LegalityIsTheTwentyThreeClauses :=
  fun _ _ _ _ _ _ => ⟨clauses_of_wfIsar2, wfIsar2_of_clauses⟩

/-- Of the all-zero value only the version clauses can fail: zero is defined for every field, and it is what W22 and W23 ask for. -/
theorem wfIsar2_zero_iff (arch : Arch) (api apa gpi gpa : Nibble) :
    wfIsar2 0#64 arch api apa gpi gpa = true ↔ versionPermits 0#64 arch api apa = true := by
  have hreserved : reservedBitsZero 0#64 = true := by decide
  have hdefined : definedValues 0#64 = true := by decide
  have hcross : crossRegister 0#64 api apa gpi gpa = true := (crossRegister_iff ..).mpr ⟨fun _ => rfl, fun _ => rfl⟩
  simp only [wfIsar2_iff, hreserved, hdefined, hcross, true_and, and_true]

/-- Settles O41: each version clause asks a field of the zero value for a nonzero value, so its premise must fail. -/
theorem zeroIsLegalExactlyBeforeMandatedFeatures : Obligations.ZeroIsLegalExactlyBeforeMandatedFeatures := by
  intro arch api apa gpi gpa
  rw [wfIsar2_zero_iff, versionPermits_iff]
  constructor
  · rintro ⟨h94, h89, h88, -, h87, h86⟩
    exact ⟨fun hnoAuth => absurd (h86 hnoAuth) (by decide), Bool.eq_false_of_not_eq_true fun h => absurd (h87 h) (by decide),
      Bool.eq_false_of_not_eq_true fun h => absurd (h88 h) (by decide),
      Bool.eq_false_of_not_eq_true fun h => absurd (h89 h) (by decide),
      Bool.eq_false_of_not_eq_true fun h => absurd (h94 h) (by decide)⟩
  · rintro ⟨h86, h87, h88, h89, h94⟩
    simp [h86, h87, h88, h89, h94]

end Sys2Proof.Isar2
end

section
/-! The number of values with defined fields (41_feature_predicates.md R147): a value with zero reserved ranges is a tuple of thirteen
nibbles, and the tuples in question are a product of finite sets. -/

namespace Sys2Proof

/-- The thirteen fields in their order in the register. -/
def Isar2Fields.toTuple (f : Isar2Fields) : Fin 13 → Nibble :=
  ![f.cssc, f.rprfm, f.prfmslc, f.sysinstr128, f.sysreg128, f.clrbhb, f.pacFrac, f.bc, f.mops, f.apa3, f.gpa3, f.rpres, f.wfxt]

def Isar2Fields.ofTuple (g : Fin 13 → Nibble) : Isar2Fields :=
  ⟨g 0, g 1, g 2, g 3, g 4, g 5, g 6, g 7, g 8, g 9, g 10, g 11, g 12⟩

theorem Isar2Fields.ofTuple_toTuple (f : Isar2Fields) : ofTuple f.toTuple = f := rfl

theorem Isar2Fields.toTuple_ofTuple (g : Fin 13 → Nibble) : (ofTuple g).toTuple = g := FinVec.etaExpand_eq g

namespace Isar2

/-- The defined values of each field, in the order of `toTuple`. -/
def definedNibbles : Fin 13 → Finset Nibble :=
  ![{0, 1}, {0, 1}, {0, 1}, {0, 1}, {0, 1}, {0, 1}, {0, 1}, {0, 1}, {0, 1}, {0, 1, 2, 3, 4, 5}, {0, 1}, {0, 1}, {0, 2}]

theorem definedValues_iff_mem_piFinset (v : Word) :
    definedValues v = true ↔ (fields v).toTuple ∈ Fintype.piFinset definedNibbles := by
  rw [definedValues_iff, Fintype.mem_piFinset]
  simp [Fin.forall_fin_succ, definedNibbles, Isar2Fields.toTuple, fields]

theorem fields_compose_ofTuple (g : Fin 13 → Nibble) : (fields (compose (Isar2Fields.ofTuple g))).toTuple = g := by
  rw [fields_compose, Isar2Fields.toTuple_ofTuple]

theorem definedValues_compose_ofTuple {g : Fin 13 → Nibble} (h : g ∈ Fintype.piFinset definedNibbles) :
    definedValues (compose (Isar2Fields.ofTuple g)) = true := by
  rwa [definedValues_iff_mem_piFinset, fields_compose_ofTuple]

/-- A value with zero reserved ranges and defined fields is a choice of a defined value for each field. -/
def definedValuesEquiv :
    { v : Word // reservedBitsZero v = true ∧ definedValues v = true } ≃ Fintype.piFinset definedNibbles where
  toFun v := ⟨(fields v).toTuple, (definedValues_iff_mem_piFinset v).mp v.2.2⟩
  invFun g := ⟨compose (Isar2Fields.ofTuple g), reservedBitsZero_compose _, definedValues_compose_ofTuple g.2⟩
  left_inv v := by
    have hback : compose (fields v) = v := compose_fields v.2.1
    simp only [Isar2Fields.ofTuple_toTuple, hback]
  right_inv g := Subtype.ext (fields_compose_ofTuple g)

/-- Settles O40: the choices are a product of twelve sets of two values and one of six. -/
theorem countOfValuesWithDefinedFields : Obligations.CountOfValuesWithDefinedFields := by
  have hproduct : ∏ i, (definedNibbles i).card = 24576 := by decide
  rw [Obligations.CountOfValuesWithDefinedFields, Nat.card_congr definedValuesEquiv, Nat.card_eq_fintype_card, Fintype.card_coe,
    Fintype.card_piFinset, hproduct]

end Isar2

end Sys2Proof
end

section
/-! The answers of the feature predicates (41_feature_predicates.md R131 to R145). -/

namespace Sys2Proof.Isar2

/-! A field is compared with its one nonzero value: 1, for WFXt 2. -/

theorem beq_one_eq_false_iff : ∀ {f : Nibble}, f ∈ [0b0000#4, 0b0001#4] → ((f == 0b0001#4) = false ↔ f = 0#4) := by decide

theorem beq_two_eq_false_iff : ∀ {f : Nibble}, f ∈ [0b0000#4, 0b0010#4] → ((f == 0b0010#4) = false ↔ f = 0#4) := by decide

theorem haveSETG_iff (v : Word) (haveMTE : Bool) : haveSETG v haveMTE = true ↔ mops v = 0b0001#4 ∧ haveMTE = true := by
  simp only [haveSETG, haveMOPS, Bool.and_eq_true, beq_iff_eq]

theorem havePACQARMA3_eq_or (v : Word) : havePACQARMA3 v = (addrAuthQARMA3 v || genericAuthQARMA3 v) := rfl

/-- Settles O44: of a defined field, not its nonzero value is zero; the two other predicates are a conjunction and a disjunction. -/
theorem legalFeatureAnswersAreYesOrZero : Obligations.LegalFeatureAnswersAreYesOrZero := by
  intro p hlegal
  have h := Params.clauses_of_legal hlegal
  exact ⟨beq_one_eq_false_iff h.w3, beq_one_eq_false_iff h.w4, beq_one_eq_false_iff h.w5, beq_one_eq_false_iff h.w6,
    beq_one_eq_false_iff h.w7, beq_one_eq_false_iff h.w8, beq_one_eq_false_iff h.w9, beq_one_eq_false_iff h.w10,
    beq_one_eq_false_iff h.w11, haveSETG_iff _ _, beq_one_eq_false_iff h.w13, beq_two_eq_false_iff h.w15,
    by rw [havePACQARMA3_eq_or, Bool.or_eq_false_iff]⟩

/-- Settles O45: the five functions read nothing but APA3, so its value picks the row. -/
theorem apa3FunctionTable : Obligations.Apa3FunctionTable := by
  intro v
  refine ⟨fun h => ?_, fun h => ?_, fun h => ?_, fun h => ?_, fun h => ?_, fun h => ?_⟩ <;>
    simp [addrAuthQARMA3, haveEnhancedPAC, haveEnhancedPAC2, haveFPAC, haveFPACCombined, h]

/-- Settles O47: an implementation before every mandated feature, but with APA3 2 and no authentication field in ID_AA64ISAR1_EL1. -/
theorem nonzeroApa3DoesNotForceGpa3 : Obligations.NonzeroApa3DoesNotForceGpa3 :=
  ⟨{ Params.predating with isar2 := 0x2000#64 }, by decide⟩

end Sys2Proof.Isar2
end

section
/-! How the accessor and a step stop (60_exceptions.md R160 to R162): the faults of each Exception level, the one refusal, and what a trap
records. -/

namespace Sys2Proof.Machine

/-- The three faults of EL0 (40_mrs_access.md R111). -/
theorem exec_mrs_fault_iff_of_el0 {s : State} (t : RegNum) (hel : s.el = .el0) (f : Fault) :
    exec (.mrsIdAa64isar2El1 t) s = .fault f ↔
      (s.impl.params.haveIDST = false ∧ f = .undefined)
      ∨ (s.impl.params.haveIDST = true ∧ s.tgeRoutes = false ∧ f = .systemAccessTrap .el1 0x18)
      ∨ (s.impl.params.haveIDST = true ∧ s.tgeRoutes = true ∧ f = .systemAccessTrap .el2 0x18) := by
  simp only [el0NeverReadsTheRegister t s hel, ← State.tgeRoutes_iff]
  cases s.impl.params.haveIDST with
  | false => simp [eq_comm (b := f)]
  | true => cases s.tgeRoutes <;> simp [eq_comm (b := f)]

/-- Every fault of the accessor, with the states that raise it: EL0's three and EL1's one (60_exceptions.md R160, R161). -/
theorem exec_mrs_fault_iff (t : RegNum) (s : State) (f : Fault) :
    exec (.mrsIdAa64isar2El1 t) s = .fault f ↔
      (s.el = .el0 ∧ ((s.impl.params.haveIDST = false ∧ f = .undefined)
        ∨ (s.impl.params.haveIDST = true ∧ s.tgeRoutes = false ∧ f = .systemAccessTrap .el1 0x18)
        ∨ (s.impl.params.haveIDST = true ∧ s.tgeRoutes = true ∧ f = .systemAccessTrap .el2 0x18)))
      ∨ (s.el = .el1 ∧ s.tid3Traps = true ∧ f = .systemAccessTrap .el2 0x18) := by
  cases hel : s.el with
  | el0 => simp [exec_mrs_fault_iff_of_el0 t hel f]
  | el1 => simp [exec_mrs_fault_iff_of_el1 t hel f]
  | el2 => simp [exec_mrs_ne_fault_of_mayRead t (.inl hel) f]
  | el3 => simp [exec_mrs_ne_fault_of_mayRead t (.inr (.inl hel)) f]

/-- Settles O9: of the accessor's faults one is `Undefined`. -/
theorem undefinedInExactlyOneCase : Obligations.UndefinedInExactlyOneCase := by
  intro t s
  simp [exec_mrs_fault_iff]

/-- The EL0 trap stays at EL1 where one of the two bits is clear (40_mrs_access.md R114 rows 2 and 3). -/
theorem State.tgeRoutes_eq_false_iff (s : State) : s.tgeRoutes = false ↔ s.el2Enabled = false ∨ s.hcrEl2Tge = false := by
  rw [State.tgeRoutes, Bool.and_eq_false_iff]

/-- The EL1 condition in the rows 7, 8 and 9 of 40_mrs_access.md R114, each of which assumes that the rows before it do not apply. -/
theorem State.tid3Traps_iff_rows (s : State) :
    s.tid3Traps = true ↔
      s.el2Enabled = true ∧ s.hcrEl2Tid3 = true
      ∧ (s.impl.params.haveFGT = true
        ∨ (s.impl.params.haveFGT = false ∧ s.isar2 ≠ 0#64)
        ∨ (s.impl.params.haveFGT = false ∧ s.isar2 = 0#64 ∧ s.impl.params.impDefTid3TrapsZeroReg = true)) := by
  rw [State.tid3Traps_iff, and_comm (b := s.hcrEl2Tid3 = true)]
  cases s.impl.params.haveFGT with
  | true => simp
  | false => by_cases hzero : s.isar2 = 0#64 <;> simp [hzero]

/-- Settles O10: the other three faults are the traps of EL0 by its routing, and of EL1 by its three rows. -/
theorem systemAccessTrapExactlyInItsRows : Obligations.SystemAccessTrapExactlyInItsRows := by
  intro t s target c
  rw [exec_mrs_fault_iff, State.tid3Traps_iff_rows, State.tgeRoutes_iff, State.tgeRoutes_eq_false_iff]
  simp only [Fault.systemAccessTrap.injEq, reduceCtorEq, and_false, false_or]
  constructor
  · rintro (⟨hel, ⟨hidst, hroute, rfl, rfl⟩ | ⟨hidst, ⟨hen, htge⟩, rfl, rfl⟩⟩ | ⟨hel, ⟨hen, htid3, hrow⟩, rfl, rfl⟩)
    · exact ⟨rfl, .inl ⟨rfl, hel, hidst, hroute⟩⟩
    · exact ⟨rfl, .inr (.inl ⟨rfl, hel, hidst, hen, htge⟩)⟩
    · exact ⟨rfl, .inr (.inr ⟨rfl, hel, hen, htid3, hrow⟩)⟩
  · rintro ⟨rfl, ⟨rfl, hel, hidst, hroute⟩ | ⟨rfl, hel, hidst, hen, htge⟩ | ⟨rfl, hel, hen, htid3, hrow⟩⟩
    · exact .inl ⟨hel, .inl ⟨hidst, hroute, rfl, rfl⟩⟩
    · exact .inl ⟨hel, .inr ⟨hidst, ⟨hen, htge⟩, rfl, rfl⟩⟩
    · exact .inr ⟨hel, ⟨hen, htid3, hrow⟩, rfl, rfl⟩

/-- The one refusal of the accessor is the advance past the top of the address space (10_state.md R54; log 16). -/
theorem exec_mrs_refused {t : RegNum} {s : State} {r : Refusal} (h : exec (.mrsIdAa64isar2El1 t) s = .refused r) :
    r = .pcWrap := by
  rcases execMrsIdAa64isar2El1_cases t s with ⟨-, -, he⟩ | ⟨-, -, he⟩ | ⟨-, hstop⟩
  · simp [exec, he] at h
  · simpa [exec, he, eq_comm] using h
  · rcases hstop with ⟨-, -, he⟩ | ⟨-, -, -, he⟩ | ⟨-, -, -, he⟩ | ⟨-, -, he⟩ <;> simp [exec, he] at h

/-- The accessor raises `Undefined`, or the trap to EL1 or EL2 with the class 0x18 (60_exceptions.md R160, R161). -/
theorem exec_mrs_fault {t : RegNum} {s : State} {f : Fault} (h : exec (.mrsIdAa64isar2El1 t) s = .fault f) :
    f = .undefined ∨ f = .systemAccessTrap .el1 0x18 ∨ f = .systemAccessTrap .el2 0x18 := by
  rcases (exec_mrs_fault_iff t s f).mp h with ⟨-, ⟨-, hf⟩ | ⟨-, -, hf⟩ | ⟨-, -, hf⟩⟩ | ⟨-, -, hf⟩
  · exact .inl hf
  · exact .inr (.inl hf)
  · exact .inr (.inr hf)
  · exact .inr (.inr hf)

/-- Settles O24: a step stops before it executes, by its own three names, or as the accessor stops. -/
theorem stepStopsOnlyByTheNamedReasons : Obligations.StepStopsOnlyByTheNamedReasons := by
  intro s
  rcases step_cases s with ⟨-, hstep⟩ | ⟨-, -, hstep⟩ | ⟨-, _, e, -, -, hstep⟩ | ⟨-, _, i, _, -, -, hstep⟩
  · simp [hstep]
  · simp [hstep]
  · simp [hstep]
  · cases i with
    | mrsIdAa64isar2El1 t =>
      rw [hstep]
      refine ⟨fun f hf => ?_, fun r hr => .inl (exec_mrs_refused hr)⟩
      rcases exec_mrs_fault hf with hf | hf | hf <;> simp [hf]

/-- Settles O50: the parts of the syndrome as a sum, in which only the destination varies, five bits up. -/
theorem generalSyndromeValue : Obligations.GeneralSyndromeValue := by
  intro t
  simp only [generalSyndrome, generalIss, SysRegLoc.isar2, toNat_concat, BitVec.toNat_ofNat, BitVec.toNat_ofFin]
  omega

/-- A record exists for a trap alone, whatever its class. -/
theorem mrsTrapRecord_eq_some_iff (t : RegNum) (s : State) (r : TrapRecord) :
    mrsTrapRecord t s = some r ↔
      ∃ target c, exec (.mrsIdAa64isar2El1 t) s = .fault (.systemAccessTrap target c)
        ∧ r = Config.trapSyndrome target t s.pc := by
  simp only [mrsTrapRecord, exec]
  cases execMrsIdAa64isar2El1 t s with
  | next s' => simp
  | refused why => simp
  | fault f => cases f <;> simp [Fault.trapRecord, eq_comm]

/-- Settles O51: the class of the accessor's trap is always 0x18 (O10). -/
theorem trapRecordIsTheOpenParameter : Obligations.TrapRecordIsTheOpenParameter := by
  intro t s r
  rw [mrsTrapRecord_eq_some_iff]
  constructor
  · rintro ⟨target, c, htrap, hr⟩
    obtain ⟨rfl, -⟩ := (systemAccessTrapExactlyInItsRows t s target c).mp htrap
    exact ⟨target, htrap, hr⟩
  · rintro ⟨target, htrap, hr⟩
    exact ⟨target, 0x18, htrap, hr⟩

end Sys2Proof.Machine
end

section
/-! The state after reset (70_reset_and_hazards.md R190, R191), of any implementation with any set of levels. -/

namespace Sys2Proof.Machine

/-- Every register, XZR included, reads as zero after reset (log 6). -/
theorem State.readX_resetOf (impl : Implementation) (levels : Levels) (t : RegNum) :
    (State.resetOf impl levels).readX t = 0#64 := by
  by_cases h : t.val < 31 <;> simp [State.readX, State.resetOf, h]

/-- Reset starts at the highest Exception level of EL1, EL2 and EL3 that the PE has, with EL2 not enabled (log 3, log 5). -/
theorem State.levelsConsistent_resetOf (impl : Implementation) (levels : Levels) :
    (State.resetOf impl levels).levelsConsistent = true := by
  obtain ⟨haveEL2, haveEL3⟩ := levels
  cases haveEL3 with
  | true => rfl
  | false => cases haveEL2 <;> rfl

theorem State.inv_resetOf (impl : Implementation) (levels : Levels) : (State.resetOf impl levels).Inv where
  memory := rfl
  aligned := rfl
  levels := State.levelsConsistent_resetOf impl levels

/-- Settles O22: `State.reset` is the reset state of one implementation. -/
theorem resetMeetsTheInvariant : Obligations.ResetMeetsTheInvariant :=
  ⟨State.inv_resetOf _ _, State.inv_resetOf⟩

/-- Settles O43: the fields as they are chosen; EL3 may read, and the program counter 0 can advance. -/
theorem resetStateAsTheLogNamesIt : Obligations.ResetStateAsTheLogNamesIt := by
  have hread : State.reset.mayRead := .inr (.inl rfl)
  have hpc : State.reset.pc.toNat + 4 < 2 ^ 64 := by decide
  exact ⟨rfl, rfl, rfl, State.readX_resetOf _ _, rfl, rfl, rfl, rfl, fun t => ⟨_, exec_mrs_of_mayRead t hread hpc⟩⟩

end Sys2Proof.Machine
end

section
/-! The program counter along a run (10_state.md R54; 95_test_vectors.md section 6). -/

namespace Sys2Proof.Machine

/-- Settles O26, by induction over the run: its first step advances by four (O23), and the rest of the run by four per step. -/
theorem runOfReadsAdvancesByFourEach : Obligations.RunOfReadsAdvancesByFourEach := by
  intro k s s' h
  induction k generalizing s with
  | zero =>
    cases h
    rfl
  | succ k ih =>
    obtain ⟨m, hfirst, hrest⟩ := run_succ_next h
    obtain ⟨-, hpc, -⟩ := completedStepChangesOneRegisterAndPc s m hfirst
    calc s'.pc.toNat = m.pc.toNat + 4 * k := ih m hrest
      _ = s.pc.toNat + 4 * (k + 1) := by omega

end Sys2Proof.Machine
end

section
/-! The words of the opcode table (95_test_vectors.md section 5): what the table's decoder makes of a word is what `decodeWord` makes of it. -/

namespace Sys2Proof

/-- The table's decoder drops the reason of a refusal, and nothing else. -/
theorem decodeTableWord_eq_toOption (nbits w : Nat) :
    decodeTableWord nbits w = (decodeWord (tableWord nbits w)).toOption := by
  simp only [decodeTableWord, bytesOfWord, decode, wordOfBytes_of_word]
  cases decodeWord (tableWord nbits w) with
  | ok i => rfl
  | error e => rfl

theorem decodeTableWord_of_eq_encodeWord {nbits w : Nat} {i : Instr} (h : tableWord nbits w = encodeWord i) :
    decodeTableWord nbits w = some i := by
  rw [decodeTableWord_eq_toOption, h, decodeWord_encodeWord]
  rfl

theorem decodeTableWord_of_error {nbits w : Nat} {e : DecodeError} (h : decodeWord (tableWord nbits w) = .error e) :
    decodeTableWord nbits w = none := by
  rw [decodeTableWord_eq_toOption, h]
  rfl

/-- Settles O31: three of the words are the encoder's, and the fourth is refused as the write form. -/
theorem wordsOfTheSpecDecode : Obligations.WordsOfTheSpecDecode :=
  ⟨decodeTableWord_of_eq_encodeWord (by decide), decodeTableWord_of_eq_encodeWord (by decide),
    decodeTableWord_of_eq_encodeWord (by decide), decodeTableWord_of_error (e := .writeAccessor) (by decide)⟩

end Sys2Proof
end
